-- ==== Sys2Proof/Word.lean ====
section
/-! DEFINITION. The word types of CORE (`spec/30_encoding.md`, `spec/10_state.md`). -/

namespace Sys2Proof

/-- A 32-bit word: a control register or the argument of a control write (R54, R55). -/
abbrev Word := BitVec 32

/-- A packed pixel: one 32-bit word with four 8-bit channels (R50). -/
abbrev Pixel := BitVec 32

/-- One 8-bit gamma-encoded channel, or an 8-bit linear bucket (R51, R73). -/
abbrev Channel := BitVec 8

/-- A 15-bit linear intensity, `0 .. 32767` (R19, R70). -/
abbrev Linear := BitVec 15

/-- The index of a word in a raster space (R30: a 32-bit index). -/
abbrev Index := BitVec 32

end Sys2Proof
end

