-- ==== Sys2Proof/Config.lean ====
section
/-! DEFINITION. What an implementation fixes and the spec leaves open: the tritan constants
(`spec/42_csc_tritan.md` R91, decision D13), the driver forms (R114), and the free values. An `opaque` constant has no body:
nothing can be proved of its value. -/

namespace Sys2Proof

/-- Three rationals: a row of a tritan matrix, or the triples `(L, M, S)` and `(r, g, b)`. -/
structure Vec3 where
  x : Rat
  y : Rat
  z : Rat
deriving DecidableEq, Repr, Inhabited

/-- A 3×3 matrix of rationals by rows. -/
structure Mat3 where
  row1 : Vec3
  row2 : Vec3
  row3 : Vec3
deriving DecidableEq, Repr, Inhabited

/-- The OPEN constants of the tritan variant (R91): `a` is `TRI_A` (rows L, M, S, columns r, g, b),
`b` is `TRI_B` (rows r, g, b, columns L, M, S), `t` is `TRI_T`, the rest are the two coefficient sets. -/
structure TriParams where
  a : Mat3
  b : Mat3
  t : Rat
  p1 : Rat
  q1 : Rat
  p2 : Rat
  q2 : Rat
deriving DecidableEq, Repr, Inhabited

/-- The tritan constants of this implementation: the source names them and gives none
(D13, `spec/91_not_in_source.md` N5 to N9; assumption 3). -/
opaque Config.tri : TriParams

/-- The two driver forms of R114; which one a block has is a parameter of the step relation (R4, R24, U12). -/
inductive Driver where
  /-- One source word in, one destination word out, per step. -/
  | streaming
  /-- The `SRC_W` words of a row are read into a line buffer, then transformed and written. -/
  | rowBuffered
deriving DecidableEq, Repr, Inhabited

/-- FREE VALUE: how the `k`-th choice falls that the spec leaves open between two words (R38 item 4,
R160, R161; assumptions 13 and 14). -/
opaque Config.freeChoice : Nat → Bool

end Sys2Proof
end

