-- ==== Sys2Proof/Machine/GammaTables.lean ====
section
/-! DEFINITION. The reference contents of the two gamma tables (`spec/40_gamma_tables.md` R72, R75):
the state of `gamma_linearizer` and of `gamma_encoder` (R19, R20). They are parameters of the model
(R4, decisions D7 and D8): `State.params` holds a table, and `State.reset` takes these contents
(assumption 2). -/

namespace Sys2Proof.Machine

/-- Reference contents of `FWD_LUT` (R72), sixteen entries a row. -/
def fwdReference : Vector Linear 256 :=
  ⟨((
    ([130, 130, 130, 132, 133, 135, 138, 142, 146, 150, 156, 162, 169, 176, 185, 194] : List Linear) ++
    ([203, 214, 225, 237, 250, 264, 278, 293, 309, 326, 344, 362, 382, 402, 423, 445] : List Linear) ++
    ([468, 491, 516, 541, 568, 595, 623, 652, 682, 713, 745, 777, 811, 845, 881, 917] : List Linear) ++
    ([954, 993, 1032, 1072, 1113, 1155, 1198, 1242, 1287, 1333, 1380, 1428, 1477, 1527, 1578, 1630] : List Linear) ++
    ([1683, 1737, 1792, 1847, 1904, 1962, 2021, 2081, 2142, 2204, 2267, 2331, 2396, 2462, 2530, 2598] : List Linear) ++
    ([2667, 2737, 2809, 2881, 2955, 3029, 3105, 3181, 3259, 3338, 3418, 3499, 3580, 3664, 3748, 3833] : List Linear) ++
    ([3919, 4007, 4095, 4185, 4275, 4367, 4460, 4554, 4649, 4745, 4842, 4941, 5040, 5141, 5242, 5345] : List Linear) ++
    ([5449, 5554, 5660, 5768, 5876, 5986, 6096, 6208, 6321, 6435, 6550, 6667, 6784, 6903, 7023, 7143] : List Linear) ++
    ([7266, 7389, 7513, 7639, 7765, 7893, 8022, 8152, 8284, 8416, 8550, 8685, 8821, 8958, 9096, 9236] : List Linear) ++
    ([9376, 9518, 9661, 9805, 9951, 10097, 10245, 10394, 10544, 10696, 10848, 11002, 11157, 11313, 11470, 11629] : List Linear) ++
    ([11788, 11949, 12111, 12275, 12439, 12605, 12772, 12940, 13109, 13280, 13452, 13625, 13799, 13974, 14151, 14329] : List Linear) ++
    ([14508, 14688, 14870, 15053, 15237, 15422, 15609, 15796, 15985, 16175, 16367, 16560, 16754, 16949, 17145, 17343] : List Linear) ++
    ([17542, 17742, 17943, 18146, 18350, 18555, 18761, 18969, 19178, 19388, 19599, 19812, 20026, 20241, 20458, 20675] : List Linear) ++
    ([20894, 21115, 21336, 21559, 21783, 22008, 22235, 22463, 22692, 22922, 23154, 23387, 23621, 23857, 24094, 24332] : List Linear) ++
    ([24571, 24812, 25054, 25297, 25542, 25788, 26035, 26283, 26533, 26784, 27036, 27290, 27545, 27801, 28059, 28317] : List Linear) ++
    ([28577, 28839, 29102, 29366, 29631, 29898, 30166, 30435, 30705, 30977, 31251, 31525, 31801, 32078, 32356, 32636] : List Linear))).toArray, by decide +kernel⟩

/-- Reference contents of `INV_LUT` (R75), sixteen entries a row. -/
def invReference : Vector Channel 256 :=
  ⟨((
    ([0, 20, 28, 33, 38, 42, 46, 49, 52, 55, 58, 61, 63, 65, 68, 70] : List Channel) ++
    ([72, 74, 76, 78, 80, 81, 83, 85, 87, 88, 90, 91, 93, 94, 96, 97] : List Channel) ++
    ([99, 100, 102, 103, 104, 106, 107, 108, 109, 111, 112, 113, 114, 115, 117, 118] : List Channel) ++
    ([119, 120, 121, 122, 123, 124, 125, 126, 128, 129, 130, 131, 132, 133, 134, 135] : List Channel) ++
    ([136, 136, 137, 138, 139, 140, 141, 142, 143, 144, 145, 146, 147, 147, 148, 149] : List Channel) ++
    ([150, 151, 152, 153, 153, 154, 155, 156, 157, 158, 158, 159, 160, 161, 162, 162] : List Channel) ++
    ([163, 164, 165, 165, 166, 167, 168, 168, 169, 170, 171, 171, 172, 173, 174, 174] : List Channel) ++
    ([175, 176, 176, 177, 178, 178, 179, 180, 181, 181, 182, 183, 183, 184, 185, 185] : List Channel) ++
    ([186, 187, 187, 188, 189, 189, 190, 190, 191, 192, 192, 193, 194, 194, 195, 196] : List Channel) ++
    ([196, 197, 197, 198, 199, 199, 200, 200, 201, 202, 202, 203, 203, 204, 205, 205] : List Channel) ++
    ([206, 206, 207, 208, 208, 209, 209, 210, 210, 211, 212, 212, 213, 213, 214, 214] : List Channel) ++
    ([215, 216, 216, 217, 217, 218, 218, 219, 219, 220, 220, 221, 222, 222, 223, 223] : List Channel) ++
    ([224, 224, 225, 225, 226, 226, 227, 227, 228, 228, 229, 229, 230, 230, 231, 231] : List Channel) ++
    ([232, 232, 233, 233, 234, 234, 235, 235, 236, 236, 237, 237, 238, 238, 239, 239] : List Channel) ++
    ([240, 240, 241, 241, 242, 242, 243, 243, 244, 244, 245, 245, 246, 246, 247, 247] : List Channel) ++
    ([248, 248, 249, 249, 249, 250, 250, 251, 251, 252, 252, 253, 253, 254, 254, 255] : List Channel))).toArray, by decide +kernel⟩

end Sys2Proof.Machine
end

