-- ==== Sys2Proof/Syntax.lean ====
section
/-! DEFINITION. The operations of CORE: one constructor for each row of `spec/opcode_table.json`
(R56, R57), and the three formats their bit strings come in (R55, R56). -/

namespace Sys2Proof

/-- The operations of R56. A field is an operand or a run of ignored bits, kept so that encoding
drops no bit of a transaction. -/
inductive Instr where
  /-- `SELECT_MODE` (R120): `m` is the whole written word. -/
  | selectMode (m : BitVec 32)
  /-- `SET_SRC_DIM` (R122): height and width of the source raster. -/
  | setSrcDim (h w : BitVec 16)
  /-- `SET_DST_DIM` (R123): height and width of the destination raster. -/
  | setDstDim (h w : BitVec 16)
  /-- `TRANSFORM` (R121): bit 0 of the written word is 1, `x` is its ignored bits 31:1. -/
  | transform (x : BitVec 31)
  /-- `CTRL_NOP` (R124): bit 0 of the written word is 0, `x` is its ignored bits 31:1. -/
  | ctrlNop (x : BitVec 31)
  /-- `WR_IGNORED` (R127): a write of `x` to register `a`, which is `STATUS` or reserved. -/
  | wrIgnored (a : BitVec 3) (x : BitVec 32)
  /-- `RD_MODE` (R125). -/
  | rdMode
  /-- `RD_SRC_DIM` (R125). -/
  | rdSrcDim
  /-- `RD_DST_DIM` (R125). -/
  | rdDstDim
  /-- `RD_ZERO` (R125), the table's row 011: a read of `CTRL`. -/
  | rdZeroCtrl
  /-- `RD_ZERO` (R125), the table's row 101: a read of the reserved register 5. -/
  | rdZeroRes5
  /-- `RD_ZERO` (R125), the table's row 11r: a read of the reserved register `a`, 6 or 7. -/
  | rdZeroRes67 (a : BitVec 3)
  /-- `RD_STATUS` (R126). -/
  | rdStatus
  /-- `PIX.NORMAL` (R110). -/
  | pixNormal
  /-- `PIX.DEUT` (R81). -/
  | pixDeut
  /-- `PIX.PROT` (R81). -/
  | pixProt
  /-- `PIX.TRIT` (R90). -/
  | pixTrit
  /-- `PIX.GRAY` (R100). -/
  | pixGray
deriving DecidableEq, Repr

/-- A bit string with its format (R55, R56). The format is not in the bits: it is the channel the
string comes from, a control write, a control read, or the `MODE` register at a pixel step. -/
inductive Code where
  /-- Format `CW`: the 35-bit string `{a[2:0], d[31:0]}` of a control write. -/
  | cw (w : BitVec 35)
  /-- Format `CR`: the 3-bit register index of a control read. -/
  | cr (a : BitVec 3)
  /-- Format `PX`: the three bits of `MODE` that select a pixel operation. -/
  | px (m : BitVec 3)
deriving DecidableEq, Repr

/-- Whether an operation is a control write, the only kind that waits for `BUSY = 0` (R128). -/
def Instr.isWrite : Instr → Bool
  | .selectMode _ => true
  | .setSrcDim _ _ => true
  | .setDstDim _ _ => true
  | .transform _ => true
  | .ctrlNop _ => true
  | .wrIgnored _ _ => true
  | .rdMode => false
  | .rdSrcDim => false
  | .rdDstDim => false
  | .rdZeroCtrl => false
  | .rdZeroRes5 => false
  | .rdZeroRes67 _ => false
  | .rdStatus => false
  | .pixNormal => false
  | .pixDeut => false
  | .pixProt => false
  | .pixTrit => false
  | .pixGray => false

end Sys2Proof
end

