-- ==== Sys2Proof/Machine/State.lean ====
section
/-! DEFINITION. The state of one CORE instance (`spec/10_state.md` R10), with its read-only tables, the
two rasters of the host, and the host's pending operations; the reasons a step can stop; reset. -/

namespace Sys2Proof.Machine

/-- One stored word of a raster space: its index and its value (R30: the smallest unit a raster space
has is the 32-bit word; assumption 6). -/
abbrev Cell := Nat × Pixel

/-- The contents of a raster space: cells with strictly rising indices, none equal to what an unlisted
word reads as (`Memory.wf`). -/
abbrev Memory := List Cell

/-- What an unlisted raster word reads as. The spec gives no contents to words that the host has not
stored: DESIGN CHOICE (assumption 5). -/
def Memory.unlisted : Pixel := 0#32

/-- What R24 makes a parameter of the step relation: the two tables (R19, R20), the tritan constants (R91) and the
driver form (R114). No step writes it (assumption 1). -/
structure Params where
  fwd : Vector Linear 256
  inv : Vector Channel 256
  tri : TriParams
  driver : Driver
deriving DecidableEq, Repr

/-- A pending operation of the host (R130): a control transaction as its raw bit string (R55), or a
load or store of a raster space (R30, R31). -/
inductive HostOp where
  /-- `CtrlWrite`, the 35-bit string `{a, d}`. -/
  | ctrlWrite (w : BitVec 35)
  /-- `CtrlRead`, the 3-bit index. -/
  | ctrlRead (a : BitVec 3)
  /-- The host loads `SRC[i]`. -/
  | loadSrc (i : Index)
  /-- The host stores `v` at `SRC[i]`. -/
  | storeSrc (i : Index) (v : Pixel)
  /-- The host loads `DST[i]`. -/
  | loadDst (i : Index)
  /-- The host stores `v` at `DST[i]`. -/
  | storeDst (i : Index) (v : Pixel)
deriving DecidableEq, Repr

/-- Which agent moves at a step (R5, R6). The spec fixes no order between host and pipe (assumption 7). -/
inductive Turn where
  /-- The host's first pending operation. -/
  | host
  /-- A pixel step of the pipe. -/
  | pipe
  /-- The reset input is asserted: it wins over everything (R155, R140). -/
  | reset
deriving DecidableEq, Repr

/-- The state of one instance. The fields up to `prevOut` are R10's, by its names. Several instances side by side (R44)
are a `System` of such states. -/
structure State where
  /-- `MODE` (R11). -/
  mode : BitVec 3
  /-- `SRC_W` (R15). -/
  srcW : BitVec 16
  /-- `SRC_H` (R15). -/
  srcH : BitVec 16
  /-- `DST_W` (R15). -/
  dstW : BitVec 16
  /-- `DST_H` (R15). -/
  dstH : BitVec 16
  /-- `BUSY` (R13). -/
  busy : Bool
  /-- `DONE` (R13). -/
  done : Bool
  /-- `ERR_MODE` (R16), sticky. -/
  errMode : Bool
  /-- `ERR_DIM` (R16), sticky. -/
  errDim : Bool
  /-- `PIX` (R12): the index of the next pixel to process. -/
  pix : BitVec 32
  /-- `N` (R12): the number of pixels of the frame. -/
  n : BitVec 32
  /-- `PREV_VALID` (R14). -/
  prevValid : Bool
  /-- `PREV_IN` (R14). -/
  prevIn : Pixel
  /-- `PREV_OUT` (R14). -/
  prevOut : Pixel
  /-- The read-only tables and constants, and the driver form (R19, R20, R24). -/
  params : Params
  /-- The line buffer of a `row_buffered` driver (R22, R114): the words it has read and not yet worked on, that of
  `PIX` first. A `streaming` driver has none. -/
  line : List Pixel
  /-- `SRC` (R30, R31). -/
  src : Memory
  /-- `DST` (R30, R31). -/
  dst : Memory
  /-- The host's pending operations, first issued first: the MODEL's own field (assumption 7). -/
  hostq : List HostOp
  /-- Who moves at the coming steps: the MODEL's own field (assumptions 7 and 21). -/
  turns : List Turn
  /-- The word last returned to the host (R55): the MODEL's own field (assumption 9). -/
  reply : Option Word
  /-- What `DST` held when the frame in progress started, one of the two words R38 item 4 lets the host
  see: the MODEL's own field (assumption 14). -/
  dstBefore : Memory
  /-- For words of the frame in progress that the host has overwritten in `SRC`, against R160, the word the pipe
  takes there, newest first: the MODEL's own field (assumption 13). -/
  srcTaken : List Cell
  /-- Words of the frame in progress that the host has stored in `DST`, against R161, and that outlive the pipe's,
  newest first: the MODEL's own field (assumption 13). -/
  dstKept : List Cell
  /-- How many free choices have been made: the MODEL's own field (assumptions 13 and 14). -/
  freeIdx : Nat
deriving DecidableEq, Repr

/-- Why the machine stops. CORE itself has no such stop: its two exceptions are recorded and the
machine goes on (R135, R138). -/
inductive Fault where
  /-- Raised by a pixel operation that finds `PIX >= N` while `BUSY = 1`: an index R37 says is never
  accessed. SAFE: no reachable state has it (R113), and no access is made up. -/
  | pixelOutsideRaster (i : BitVec 32)
deriving DecidableEq, Repr

/-- Why a step gives no meaning. -/
inductive Refusal where
  /-- Raised by an arm of `exec` that has no meaning yet. SAFE. -/
  | notModelled (mnemonic : String)
  /-- Raised by `step` when `BUSY = 1` and `MODE` is 5, 6 or 7, which R57 says cannot occur and must not
  be given a transform. SAFE: no reachable state has it (R11). -/
  | reservedPixelCode (m : BitVec 3)
deriving DecidableEq, Repr

/-- The outcome of a step of CORE. -/
abbrev Outcome := Host.Outcome State Fault Refusal

/-- Right after reset (R23, R155). `prevIn` and `prevOut` are the model's (R23 leaves them unspecified:
assumption 4); the tables hold their reference contents (assumption 2), the tritan constants are opaque
(assumption 3), the driver is `streaming` and its line buffer empty (the model's: assumption 18); the
rasters list nothing (assumption 5). -/
def State.reset : State where
  mode := 0#3
  srcW := 0#16
  srcH := 0#16
  dstW := 0#16
  dstH := 0#16
  busy := false
  done := false
  errMode := false
  errDim := false
  pix := 0#32
  n := 0#32
  prevValid := false
  prevIn := 0#32
  prevOut := 0#32
  params := { fwd := fwdReference, inv := invReference, tri := Config.tri, driver := .streaming }
  line := []
  src := []
  dst := []
  hostq := []
  turns := []
  reply := none
  dstBefore := []
  srcTaken := []
  dstKept := []
  freeIdx := 0

end Sys2Proof.Machine
end

