-- ==== Sys2Proof/Machine/Operands.lean ====
section
/-! DEFINITION. Operand forms: the channels of a pixel word and its assembly (`spec/30_encoding.md` R51,
R52), the clamp (R77), the words of the dimension registers (R54), the pixel count and the raster index
(R12, R32), the preset coefficients (R18, R58). -/

namespace Sys2Proof.Machine

/-- `A(p) = p[31:24]` (R51). -/
def alphaOf (p : Pixel) : Channel := p.extractLsb' 24 8

/-- `R(p) = p[23:16]` (R51). -/
def redOf (p : Pixel) : Channel := p.extractLsb' 16 8

/-- `G(p) = p[15:8]` (R51). -/
def greenOf (p : Pixel) : Channel := p.extractLsb' 8 8

/-- `B(p) = p[7:0]` (R51). -/
def blueOf (p : Pixel) : Channel := p.extractLsb' 0 8

/-- `PACK(r, g, b) = {0xFF, r, g, b}` (R52): alpha is forced opaque. -/
def pack (r g b : Channel) : Pixel := 0xFF#8 ++ (r ++ (g ++ b))

/-- `CLAMP255` (R77): saturate an integer to a bucket. -/
def clamp255 (z : Int) : Channel :=
  if z < 0 then 0#8 else if 255 < z then 255#8 else BitVec.ofInt 8 z

/-- The word `{H, W}` of a dimension register (R54). -/
def dimWord (h w : BitVec 16) : Word := h ++ w

/-- `N <- SRC_W * SRC_H` in 32 bits (R121): at most 65535 × 65535, so nothing is lost (R12). -/
def pixelCount (w h : BitVec 16) : BitVec 32 := w.setWidth 32 * h.setWidth 32

/-- The index `y*W + x` of the pixel in column `x` of row `y` (R32). -/
def rasterIndex (w x y : Nat) : Nat := y * w + x

/-- One row of the preset coefficient table: three 16-bit signed integers (R18, R58). -/
structure Preset where
  k1 : BitVec 16
  k2 : BitVec 16
  k3 : BitVec 16
deriving DecidableEq, Repr

/-- Deuteranopia: `(9591, 23173, -730)` (R18), stored as R58 writes them. -/
def presetDeut : Preset := { k1 := 0x2577#16, k2 := 0x5A85#16, k3 := 0xFD26#16 }

/-- Protanopia: `(3683, 29084, 131)` (R18), stored as R58 writes them. -/
def presetProt : Preset := { k1 := 0x0E63#16, k2 := 0x719C#16, k3 := 0x0083#16 }

/-- The preset table read at `MODE`: defined only for modes 1 and 2 (R18). -/
def presetRow (mode : BitVec 3) : Option Preset :=
  if mode = 1#3 then some presetDeut else if mode = 2#3 then some presetProt else none

end Sys2Proof.Machine
end

