-- ==== Sys2Proof/Machine/Csc.lean ====
section
/-! DEFINITION. The datapath of a pixel step: `gamma_linearizer` and `gamma_encoder`
(`spec/40_gamma_tables.md`), and the three variants of `dichromat_csc_matrix`: red-green
(`spec/41_csc_red_green.md`), tritan (`spec/42_csc_tritan.md`), grayscale (`spec/43_csc_grayscale.md`).
All are pure functions of the parameters and of one pixel word (R5). -/

namespace Sys2Proof.Machine

/-- `LIN(c) = FWD_LUT[c]` (R70). The index is 8 bits, so it is always in the table (R78). -/
def lin (ps : Params) (c : Channel) : Linear := ps.fwd[c.toNat]

/-- `ENC(v) = INV_LUT[v]` (R73). The index is 8 bits, so it is always in the table (R78). -/
def enc (ps : Params) (v : Channel) : Channel := ps.inv[v.toNat]

/-- A linear intensity in arithmetic: zero-extended, never negative (R62). -/
def linInt (ps : Params) (c : Channel) : Int := ((lin ps c).toNat : Int)

/-- `S_r = k1*r_lin + k2*g_lin` (R80), exact in `Z`; the coefficients are used sign-extended (R58). -/
def sumRed (k : Preset) (r g : Int) : Int := k.k1.toInt * r + k.k2.toInt * g

/-- `S_b = k3*r_lin - k3*g_lin + 32768*b_lin` (R80), exact in `Z`. -/
def sumBlue (k : Preset) (r g b : Int) : Int := k.k3.toInt * r - k.k3.toInt * g + 32768 * b

/-- `r_blind`: one arithmetic shift of the whole sum (R80, R82). -/
def redBlind (k : Preset) (r g : Int) : Int := sumRed k r g >>> (22 : Nat)

/-- `b_blind` (R80, R82). -/
def blueBlind (k : Preset) (r g b : Int) : Int := sumBlue k r g b >>> (22 : Nat)

/-- `T_RG` (R80): green is a copy of red, the clamp comes after the shift (R83). -/
def transformRedGreen (ps : Params) (k : Preset) (p : Pixel) : Pixel :=
  let r := linInt ps (redOf p)
  let g := linInt ps (greenOf p)
  let b := linInt ps (blueOf p)
  let red := enc ps (clamp255 (redBlind k r g))
  let blue := enc ps (clamp255 (blueBlind k r g b))
  pack red red blue

/-- `T_DEUT` (R81). -/
def transformDeut (ps : Params) (p : Pixel) : Pixel := transformRedGreen ps presetDeut p

/-- `T_PROT` (R81). -/
def transformProt (ps : Params) (p : Pixel) : Pixel := transformRedGreen ps presetProt p

/-- A row of a matrix times a column. -/
def dot (u v : Vec3) : Rat := u.x * v.x + u.y * v.y + u.z * v.z

/-- A matrix times a column. -/
def mulVec (m : Mat3) (v : Vec3) : Vec3 :=
  { x := dot m.row1 v, y := dot m.row2 v, z := dot m.row3 v }

/-- The column `(r_lin, g_lin, b_lin)` of a pixel as rationals (R90 step 1). -/
def linVec (ps : Params) (p : Pixel) : Vec3 where
  x := ((lin ps (redOf p)).toNat : Rat)
  y := ((lin ps (greenOf p)).toNat : Rat)
  z := ((lin ps (blueOf p)).toNat : Rat)

/-- `LMS` (R92): `TRI_A` applied to the linear values, normalised by 32767. -/
def lms (t : TriParams) (v : Vec3) : Vec3 :=
  let w := mulVec t.a v
  { x := w.x / 32767, y := w.y / 32767, z := w.z / 32767 }

/-- `SUBST` (R93): set 1 when the ratio `M / L` exists and is below `TRI_T`, else set 2; `L = 0` and
equality go to set 2 (D15). -/
def substS (t : TriParams) (l m : Rat) : Rat :=
  if l ≠ 0 ∧ m / l < t.t then t.p1 * l + t.q1 * m else t.p2 * l + t.q2 * m

/-- `RGB255` (R94): `TRI_B` applied to `(L, M, S')`, scaled by 255. -/
def rgb255 (t : TriParams) (v : Vec3) : Vec3 :=
  let w := mulVec t.b v
  { x := 255 * w.x, y := 255 * w.y, z := 255 * w.z }

/-- `OUT` (R95): a component outside `0 .. 255` bypasses `INV_LUT`; the comparison is on the exact value
(D16, D17). -/
def triOut (ps : Params) (c : Rat) : Channel :=
  if c < 0 then 0#8 else if 255 < c then 255#8 else enc ps (BitVec.ofInt 8 c.floor)

/-- The components `(c_r, c_g, c_b)` of R94 for one pixel; the computed `S` is discarded (R93). -/
def triComponents (ps : Params) (p : Pixel) : Vec3 :=
  let v := lms ps.tri (linVec ps p)
  rgb255 ps.tri { x := v.x, y := v.y, z := substS ps.tri v.x v.y }

/-- `T_TRIT` (R90), exact in `Q` (R96). -/
def transformTrit (ps : Params) (p : Pixel) : Pixel :=
  let c := triComponents ps p
  pack (triOut ps c.x) (triOut ps c.y) (triOut ps c.z)

/-- `S_y = 2126*r_lin + 7152*g_lin + 722*b_lin` (R100): 10000 times the luminance (R101). -/
def sumGray (r g b : Int) : Int := 2126 * r + 7152 * g + 722 * b

/-- `y = floor(S_y / 2560000)` (R100): the divisor 256 is kept on purpose (R102). -/
def grayBucket (r g b : Int) : Int := sumGray r g b / 2560000

/-- `T_GRAY` (R100). -/
def transformGray (ps : Params) (p : Pixel) : Pixel :=
  let r := linInt ps (redOf p)
  let g := linInt ps (greenOf p)
  let b := linInt ps (blueOf p)
  let e := enc ps (clamp255 (grayBucket r g b))
  pack e e e

/-- `T[m]` of R112, with `T[0] = T_NORMAL` (R110, R115); codes 5 to 7 have no transform (R57). -/
def modeTransform (ps : Params) (m : BitVec 3) (p : Pixel) : Option Pixel :=
  if m = 0#3 then some p
  else if m = 1#3 then some (transformDeut ps p)
  else if m = 2#3 then some (transformProt ps p)
  else if m = 3#3 then some (transformTrit ps p)
  else if m = 4#3 then some (transformGray ps p)
  else none

end Sys2Proof.Machine
end

