-- ==== Sys2Proof/Machine/Flags.lean ====
section
/-! DEFINITION. The flags of CORE: `BUSY`, `DONE`, `ERR_MODE`, `ERR_DIM`, `PREV_VALID` are all it has (R21).
What sets them together, and the word they are read in. -/

namespace Sys2Proof.Machine

/-- One bit as a 1-bit vector. -/
def flagBit (b : Bool) : BitVec 1 := BitVec.ofBool b

/-- `STATUS` is the view `{22 zeros, ERR_DIM, ERR_MODE, 6 zeros, DONE, BUSY}` (R17, R126). -/
def statusWord (s : State) : Word :=
  0#22 ++ (flagBit s.errDim ++ (flagBit s.errMode ++ (0#6 ++ (flagBit s.done ++ flagBit s.busy))))

/-- A frame of at least one pixel starts: `DONE <- 0; BUSY <- 1` (R121). -/
def frameRunning (s : State) : State := { s with done := false, busy := true }

/-- A frame has ended: `BUSY <- 0; DONE <- 1` (R107, R113). -/
def frameEnded (s : State) : State := { s with busy := false, done := true }

/-- The previous-pixel cache is emptied: `PREV_VALID <- 0` (R121, R41). -/
def cacheEmptied (s : State) : State := { s with prevValid := false }

/-- The previous-pixel cache takes the pair `(p, q)`: `PREV_IN`, `PREV_OUT`, `PREV_VALID <- 1` (R107). -/
def cacheFilled (p q : Pixel) (s : State) : State :=
  { s with prevIn := p, prevOut := q, prevValid := true }

end Sys2Proof.Machine
end

