-- ==== Sys2Proof/Machine/Ops.lean ====
section
/-! DEFINITION. The shared operations of the meanings: raster memory, taking an exception, the acceptance of
a control write, the answer to a read, the pixel step, reset, and the host's raster accesses. -/

namespace Sys2Proof.Machine

/-! ### Raster memory (`spec/20_memory.md` R30, R35) -/

/-- The value at address `a`. -/
def Memory.read : Memory → Nat → Pixel
  | [], _ => Memory.unlisted
  | c :: m, a => if a = c.1 then c.2 else Memory.read m a

/-- The memory with `v` at address `a`. A value equal to the unlisted one is not listed, so that equal
memories are equal data. -/
def Memory.write : Memory → Nat → Pixel → Memory
  | [], a, v => if v = Memory.unlisted then [] else [(a, v)]
  | c :: m, a, v =>
    if a < c.1 then
      if v = Memory.unlisted then c :: m else (a, v) :: c :: m
    else if a = c.1 then
      if v = Memory.unlisted then m else (a, v) :: m
    else c :: Memory.write m a v

/-- The canonical form: indices strictly rising and within the 32-bit index space (R30), no entry equal to
what an unlisted word reads as. -/
def Memory.wf : Memory → Bool
  | [] => true
  | c :: m =>
    decide (c.1 < 4294967296) && decide (c.2 ≠ Memory.unlisted) && m.all (fun d => decide (c.1 < d.1)) &&
      Memory.wf m

/-- `MemRead(SRC, i)`, and the host's loads: one whole word at an index (R7, R35). -/
def memRead (m : Memory) (i : Index) : Pixel := Memory.read m i.toNat

/-- `MemWrite(DST, i, v)`, and the host's stores: one whole word at an index (R7, R35). -/
def memWrite (m : Memory) (i : Index) (v : Pixel) : Memory := Memory.write m i.toNat v

/-! ### Exceptions (`spec/60_exceptions.md` R135, R138) -/

/-- The two exceptions of R135. -/
inductive Exc where
  /-- `InvalidMode` (R136), recorded in `ERR_MODE`. -/
  | invalidMode
  /-- `DimensionMismatch` (R137), recorded in `ERR_DIM`. -/
  | dimensionMismatch
deriving DecidableEq, Repr

/-- Taking an exception (R138): its sticky bit is set and nothing else changes. Nothing is saved and
control goes nowhere; there is no return from an exception, and only reset clears the bit (R139). -/
def raise (e : Exc) (s : State) : State :=
  match e with
  | .invalidMode => { s with errMode := true }
  | .dimensionMismatch => { s with errDim := true }

/-! ### Control transactions (`spec/45_selector_control.md`) -/

/-- A control write is accepted only when `BUSY = 0` (R128). While `BUSY = 1` it waits: it has no effect,
raises nothing (R140), and `fetch` leaves it pending. -/
def acceptWrite (f : State → State) (s : State) : Outcome :=
  .next (if s.busy then s else f s)

/-- A control read or a raster load returns a word to the host and changes nothing else (R125, R35). -/
def answer (v : Word) (s : State) : State := { s with reply := some v }

/-- `MODE <- d[2:0]`, or `raise InvalidMode` when the whole word is above 4 (R120, D37). -/
def selectMode (d : Word) (s : State) : State :=
  if 4 < d.toNat then raise .invalidMode s else { s with mode := d.extractLsb' 0 3 }

/-- `SRC_W <- d[15:0]; SRC_H <- d[31:16]` (R122). -/
def setSrcDim (h w : BitVec 16) (s : State) : State := { s with srcW := w, srcH := h }

/-- `DST_W <- d[15:0]; DST_H <- d[31:16]` (R123). -/
def setDstDim (h w : BitVec 16) (s : State) : State := { s with dstW := w, dstH := h }

/-- An accepted `TRANSFORM` with matching dimensions (R121): `N`, `PIX`, the cache, and the flags of an
empty or of a running frame. The line buffer is empty at the start of a frame (R114), and `dstBefore`,
`srcTaken`, `dstKept` are the model's records of it (assumptions 13, 14). -/
def startFrame (s : State) : State :=
  let n := pixelCount s.srcW s.srcH
  let s1 := cacheEmptied { s with n := n, pix := 0#32 }
  if n = 0#32 then { s1 with done := true }
  else frameRunning { s1 with line := [], dstBefore := s.dst, srcTaken := [], dstKept := [] }

/-- `TRANSFORM` (R121): width is compared with width and height with height (D20). -/
def transformCommand (s : State) : State :=
  if s.srcW ≠ s.dstW ∨ s.srcH ≠ s.dstH then raise .dimensionMismatch s else startFrame s

/-! ### The pixel step (`spec/44_raster_pixel_pipe.md` R107) -/

/-- A pixel step is enabled exactly when `BUSY = 1` (R107): otherwise the pipe does nothing. It accesses
only indices below `N` (R37): `PIX >= N` is an address that does not exist, and faults (assumption 11). -/
def inFrame (f : State → State) (s : State) : Outcome :=
  if s.busy then
    if s.pix < s.n then .next (f s) else .fault (.pixelOutsideRaster s.pix)
  else .next s

/-- The newest word that `l` records at address `a`, else `w`. -/
def overlay (l : List Cell) (a : Nat) (w : Pixel) : Pixel :=
  match l with
  | [] => w
  | c :: l => if a = c.1 then c.2 else overlay l a w

/-- The word the pipe takes at index `i`: the word in `SRC`, unless the host has overwritten it during the frame
(R160: then it is the old or the new one; assumption 13). -/
def pipeWord (i : Index) (s : State) : Pixel := overlay s.srcTaken i.toNat (memRead s.src i)

/-- What `DST[i]` holds once the pipe has written `q` there: `q`, unless a store of the host during the frame
outlives it (R161; assumption 13). -/
def settledWord (i : Index) (q : Pixel) (s : State) : Pixel := overlay s.dstKept i.toNat q

/-- The `k` words of `m` from index `i` on. -/
def readRow (m : Memory) (i : Index) (k : Nat) : List Pixel :=
  match k with
  | 0 => []
  | k + 1 => memRead m i :: readRow m (i + 1#32) k

/-- The source words the driver has read at a pixel step and not yet worked on, that of `PIX` first (R114): a
`streaming` driver reads the one word; a `row_buffered` one works off its line buffer, and when that is empty reads the
`SRC_W` words of the row that starts at `PIX` (assumption 18). -/
def wordsAtHand (s : State) : List Pixel :=
  match s.params.driver with
  | .streaming => [memRead s.src s.pix]
  | .rowBuffered => if s.line = [] then readRow s.src s.pix s.srcW.toNat else s.line

/-- `p <- MemRead(SRC, PIX)` as the driver does it (R107, R114). Where the host has overwritten the word during the
frame, it is the one recorded (R160; assumption 13). -/
def takenWord (s : State) : Pixel :=
  overlay s.srcTaken s.pix.toNat ((wordsAtHand s).headD (memRead s.src s.pix))

/-- `MemWrite(DST, i, q); PIX <- i + 1`, and on the last pixel the end of the frame, in the same step
(R107, R113); the driver has done with the word of `PIX`. -/
def storePixel (q : Pixel) (s : State) : State :=
  let s1 := { s with
    dst := memWrite s.dst s.pix (settledWord s.pix q s), pix := s.pix + 1#32, line := (wordsAtHand s).tail }
  if s.pix + 1#32 = s.n then frameEnded s1 else s1

/-- The word a filter mode writes for `p`: the cached result when the whole word is the preceding one,
else the transform (R107, R108). -/
def filterResult (t : Pixel → Pixel) (p : Pixel) (s : State) : Pixel :=
  if s.prevValid ∧ p = s.prevIn then s.prevOut else t p

/-- A pixel step of modes 1 to 4 with the transform `t` (R107): read, hit or compute, fill the cache, write. -/
def filterPixel (t : Pixel → Pixel) (s : State) : State :=
  let p := takenWord s
  let q := filterResult t p s
  storePixel q (cacheFilled p q s)

/-- A pixel step of mode normal (R110): the whole word is copied, the cache is neither read nor written. -/
def copyPixel (s : State) : State := storePixel (takenWord s) s

/-! ### Reset (`spec/70_reset_and_hazards.md` R155) -/

/-- The reset step: every register as R23 says; the parameters, the rasters and the host are not CORE's
to reset (R155, R157, R159; assumption 16). -/
def resetStep (s : State) : State :=
  { State.reset with
    params := s.params, src := s.src, dst := s.dst,
    hostq := s.hostq, turns := s.turns, reply := s.reply, freeIdx := s.freeIdx }

/-! ### The host's own raster accesses (R30, R31, R38, R160, R161) -/

/-- Whether word `i` of a raster belongs to the frame in progress. -/
def inRunningFrame (i : Index) (s : State) : Bool := s.busy && decide (i < s.n)

/-- The host loads `SRC[i]`: no side effect (R35). -/
def hostLoadSrc (i : Index) (s : State) : Outcome := .next (answer (memRead s.src i) s)

/-- The frame's result at index `i` (R115), as the pipe and the host's stores during the frame make it. A `MODE`
without a transform leaves the word. -/
def frameResult (i : Index) (s : State) : Pixel :=
  settledWord i ((modeTransform s.params s.mode (pipeWord i s)).getD (memRead s.dst i)) s

/-- Where the pipe is already past index `i`, `DST[i]` holds the frame's result. -/
def settle (i : Index) (s : State) : State :=
  if i < s.pix then { s with dst := memWrite s.dst i (frameResult i s) } else s

/-- The host stores to a word of `SRC` that the running frame reads: the store happens, and the pipe takes the old or
the new word there, since no order of processing is promised (R160, R114; assumption 13). -/
def disturbSrc (i : Index) (v : Pixel) (s : State) : State :=
  let w := if Config.freeChoice s.freeIdx then v else pipeWord i s
  settle i { s with
    src := memWrite s.src i v, srcTaken := (i.toNat, w) :: s.srcTaken, freeIdx := s.freeIdx + 1 }

/-- The host stores to a word of `DST` that the running frame writes: its store or the pipe's survives (R161;
assumption 13). Where an earlier store of the host survives, a later one does too. -/
def disturbDst (i : Index) (v : Pixel) (s : State) : State :=
  let late := Config.freeChoice s.freeIdx || s.dstKept.any (fun c => decide (c.1 = i.toNat))
  settle i { s with
    dst := memWrite s.dst i v, dstBefore := memWrite s.dstBefore i v,
    dstKept := if late then (i.toNat, v) :: s.dstKept else s.dstKept, freeIdx := s.freeIdx + 1 }

/-- The host stores to `SRC[i]`. -/
def hostStoreSrc (i : Index) (v : Pixel) (s : State) : Outcome :=
  .next (if inRunningFrame i s then disturbSrc i v s else { s with src := memWrite s.src i v })

/-- What the host sees at `DST[i]` inside a running frame: what the word held before or the frame's result there,
and nothing says which (R38 item 4, U3): a free choice of the two (assumption 14). -/
def unsettledWord (i : Index) (s : State) : Pixel :=
  if Config.freeChoice s.freeIdx then memRead s.dstBefore i else frameResult i s

/-- The host loads `DST[i]`; inside a running frame what it sees is one of two words (R38 item 4). -/
def hostLoadDst (i : Index) (s : State) : Outcome :=
  if inRunningFrame i s then
    .next (answer (unsettledWord i s) { s with freeIdx := s.freeIdx + 1 })
  else .next (answer (memRead s.dst i) s)

/-- The host stores to `DST[i]`. -/
def hostStoreDst (i : Index) (v : Pixel) (s : State) : Outcome :=
  .next (if inRunningFrame i s then disturbDst i v s else { s with dst := memWrite s.dst i v })

end Sys2Proof.Machine
end

