-- ==== Sys2Proof/Machine/ControlRead.lean ====
section
/-! DEFINITION. The control reads (`spec/45_selector_control.md` section 4). Each is accepted at any time,
returns a word to the host and changes no register (R125, R126). -/

namespace Sys2Proof.Machine

/-- `RD_MODE` (R125): `zext_32(MODE)`. -/
def execRdMode (s : State) : Outcome := .next (answer (s.mode.setWidth 32) s)

/-- `RD_SRC_DIM` (R125): `{SRC_H, SRC_W}`. -/
def execRdSrcDim (s : State) : Outcome := .next (answer (dimWord s.srcH s.srcW) s)

/-- `RD_DST_DIM` (R125): `{DST_H, DST_W}`. -/
def execRdDstDim (s : State) : Outcome := .next (answer (dimWord s.dstH s.dstW) s)

/-- `RD_ZERO` of `CTRL` (R125): the command register stores nothing and reads 0 (R17). -/
def execRdZeroCtrl (s : State) : Outcome := .next (answer 0#32 s)

/-- `RD_ZERO` of the reserved register 5 (R125, R54). -/
def execRdZeroRes5 (s : State) : Outcome := .next (answer 0#32 s)

/-- `RD_ZERO` of the reserved registers 6 and 7 (R125, R54). -/
def execRdZeroRes67 (_a : BitVec 3) (s : State) : Outcome := .next (answer 0#32 s)

/-- `RD_STATUS` (R126). -/
def execRdStatus (s : State) : Outcome := .next (answer (statusWord s) s)

end Sys2Proof.Machine
end

