-- ==== Sys2Proof/Machine/ControlWrite.lean ====
section
/-! DEFINITION. The six control writes (`spec/45_selector_control.md` sections 2 and 3). Each waits while
`BUSY = 1` (R128). -/

namespace Sys2Proof.Machine

/-- `SELECT_MODE` (R120). -/
def execSelectMode (m : BitVec 32) (s : State) : Outcome := acceptWrite (selectMode m) s

/-- `SET_SRC_DIM` (R122): every value is legal, and nothing is checked here. -/
def execSetSrcDim (h w : BitVec 16) (s : State) : Outcome := acceptWrite (setSrcDim h w) s

/-- `SET_DST_DIM` (R123). -/
def execSetDstDim (h w : BitVec 16) (s : State) : Outcome := acceptWrite (setDstDim h w) s

/-- `TRANSFORM` (R121): bits 31:1 of the written word are ignored. -/
def execTransform (_x : BitVec 31) (s : State) : Outcome := acceptWrite transformCommand s

/-- `CTRL_NOP` (R124): no effect on any state. -/
def execCtrlNop (_x : BitVec 31) (s : State) : Outcome := acceptWrite id s

/-- `WR_IGNORED` (R127): no effect on any state, whichever register and word. -/
def execWrIgnored (_a : BitVec 3) (_x : BitVec 32) (s : State) : Outcome := acceptWrite id s

end Sys2Proof.Machine
end

