-- ==== Sys2Proof/Machine/PixelOps.lean ====
section
/-! DEFINITION. The five pixel operations: the pixel step of R107 under each Deficiency Mode
(`spec/44_raster_pixel_pipe.md`; R110, R81, R90, R100). -/

namespace Sys2Proof.Machine

/-- `PIX.NORMAL` (R110): identity copy, alpha included. -/
def execPixNormal (s : State) : Outcome := inFrame copyPixel s

/-- `PIX.DEUT` (R81). -/
def execPixDeut (s : State) : Outcome := inFrame (filterPixel (transformDeut s.params)) s

/-- `PIX.PROT` (R81). -/
def execPixProt (s : State) : Outcome := inFrame (filterPixel (transformProt s.params)) s

/-- `PIX.TRIT` (R90). -/
def execPixTrit (s : State) : Outcome := inFrame (filterPixel (transformTrit s.params)) s

/-- `PIX.GRAY` (R100). -/
def execPixGray (s : State) : Outcome := inFrame (filterPixel (transformGray s.params)) s

end Sys2Proof.Machine
end

