-- ==== Sys2Proof/Machine/Dispatch.lean ====
section
/-! DEFINITION. The meaning of every operation of `spec/opcode_table.json`, one arm for each row. -/

namespace Sys2Proof.Machine

def exec (i : Instr) (s : State) : Host.Outcome State Fault Refusal :=
  match i with
  | .selectMode m => Sys2Proof.Machine.execSelectMode m s
  | .setSrcDim h w => Sys2Proof.Machine.execSetSrcDim h w s
  | .setDstDim h w => Sys2Proof.Machine.execSetDstDim h w s
  | .transform x => Sys2Proof.Machine.execTransform x s
  | .ctrlNop x => Sys2Proof.Machine.execCtrlNop x s
  | .wrIgnored a x => Sys2Proof.Machine.execWrIgnored a x s
  | .rdMode => Sys2Proof.Machine.execRdMode s
  | .rdSrcDim => Sys2Proof.Machine.execRdSrcDim s
  | .rdDstDim => Sys2Proof.Machine.execRdDstDim s
  | .rdZeroCtrl => Sys2Proof.Machine.execRdZeroCtrl s
  | .rdZeroRes5 => Sys2Proof.Machine.execRdZeroRes5 s
  | .rdZeroRes67 a => Sys2Proof.Machine.execRdZeroRes67 a s
  | .rdStatus => Sys2Proof.Machine.execRdStatus s
  | .pixNormal => Sys2Proof.Machine.execPixNormal s
  | .pixDeut => Sys2Proof.Machine.execPixDeut s
  | .pixProt => Sys2Proof.Machine.execPixProt s
  | .pixTrit => Sys2Proof.Machine.execPixTrit s
  | .pixGray => Sys2Proof.Machine.execPixGray s

end Sys2Proof.Machine
end

