-- ==== Sys2Proof/WellFormed.lean ====
section
/-! DEFINITION. Which terms of `Instr` are operations of R56. Every other field is exactly as wide as
its bits in the encoding, so two checks remain: the register index of an ignored write and of a
read of registers 6 and 7. -/

namespace Sys2Proof

/-- `wrIgnored` goes to register 4 to 7 (`a` = 1rr), `rdZeroRes67` to 6 or 7 (`a` = 11r): R56, R57. -/
def Instr.wellFormed : Instr → Bool
  | .selectMode _ => true
  | .setSrcDim _ _ => true
  | .setDstDim _ _ => true
  | .transform _ => true
  | .ctrlNop _ => true
  | .wrIgnored a _ => decide (4 ≤ a.toNat)
  | .rdMode => true
  | .rdSrcDim => true
  | .rdDstDim => true
  | .rdZeroCtrl => true
  | .rdZeroRes5 => true
  | .rdZeroRes67 a => decide (6 ≤ a.toNat)
  | .rdStatus => true
  | .pixNormal => true
  | .pixDeut => true
  | .pixProt => true
  | .pixTrit => true
  | .pixGray => true

end Sys2Proof
end

