-- ==== Sys2Proof/Decode.lean ====
section
/-! DEFINITION. The decoder and the encoder of the three formats of R55 and R56, from the same table. -/

namespace Sys2Proof

/-- Why a bit string is no operation. -/
inductive DecodeError where
  /-- `PX` codes 101, 110, 111: R57 gives them no transform. -/
  | reservedPixelCode (m : BitVec 3)
deriving DecidableEq, Repr

/-- The register index of a control write: bits 34:32 of the string `{a, d}` (R55). -/
def cwIndex (w : BitVec 35) : BitVec 3 := w.extractLsb' 32 3

/-- The written word of a control write: bits 31:0 of the string `{a, d}` (R55). -/
def cwData (w : BitVec 35) : Word := w.extractLsb' 0 32

/-- The string `{a[2:0], d[31:0]}` of `CtrlWrite(a, d)` (R55). -/
def cwString (a : BitVec 3) (d : Word) : BitVec 35 := a ++ d

/-- Format `CW` (R56): every 35-bit string is a control write. -/
def decodeWrite (w : BitVec 35) : Instr :=
  let a := cwIndex w
  let d := cwData w
  if a = 0#3 then .selectMode d
  else if a = 1#3 then .setSrcDim (d.extractLsb' 16 16) (d.extractLsb' 0 16)
  else if a = 2#3 then .setDstDim (d.extractLsb' 16 16) (d.extractLsb' 0 16)
  else if a = 3#3 then
    if d.extractLsb' 0 1 = 1#1 then .transform (d.extractLsb' 1 31) else .ctrlNop (d.extractLsb' 1 31)
  else .wrIgnored a d

/-- Format `CR` (R56): every 3-bit index is a control read. -/
def decodeRead (a : BitVec 3) : Instr :=
  if a = 0#3 then .rdMode
  else if a = 1#3 then .rdSrcDim
  else if a = 2#3 then .rdDstDim
  else if a = 3#3 then .rdZeroCtrl
  else if a = 4#3 then .rdStatus
  else if a = 5#3 then .rdZeroRes5
  else .rdZeroRes67 a

/-- Format `PX` (R56, R53): codes 0 to 4 select a pixel operation, 5 to 7 none (R57). -/
def decodePixel (m : BitVec 3) : Except DecodeError Instr :=
  if m = 0#3 then .ok .pixNormal
  else if m = 1#3 then .ok .pixDeut
  else if m = 2#3 then .ok .pixProt
  else if m = 3#3 then .ok .pixTrit
  else if m = 4#3 then .ok .pixGray
  else .error (.reservedPixelCode m)

/-- The decoder: total on every bit string of every format. -/
def decode : Code → Except DecodeError Instr
  | .cw w => .ok (decodeWrite w)
  | .cr a => .ok (decodeRead a)
  | .px m => decodePixel m

/-- The encoder, row by row of R56. -/
def encode : Instr → Code
  | .selectMode m => .cw (cwString 0#3 m)
  | .setSrcDim h w => .cw (cwString 1#3 (h ++ w))
  | .setDstDim h w => .cw (cwString 2#3 (h ++ w))
  | .transform x => .cw (cwString 3#3 (x ++ 1#1))
  | .ctrlNop x => .cw (cwString 3#3 (x ++ 0#1))
  | .wrIgnored a x => .cw (cwString a x)
  | .rdMode => .cr 0#3
  | .rdSrcDim => .cr 1#3
  | .rdDstDim => .cr 2#3
  | .rdZeroCtrl => .cr 3#3
  | .rdZeroRes5 => .cr 5#3
  | .rdZeroRes67 a => .cr a
  | .rdStatus => .cr 4#3
  | .pixNormal => .px 0#3
  | .pixDeut => .px 1#3
  | .pixProt => .px 2#3
  | .pixTrit => .px 3#3
  | .pixGray => .px 4#3

/-- The transaction that the host numbers `w`, `nbits` bits in whole bytes: one byte holds a 3-bit
transaction, five bytes a 35-bit one. A 3-bit WORD is a control read: a `PX` code is never sent as a
word, it is the value of `MODE` (assumption 8). Bits beyond the format's width must be 0. -/
def tableCode (nbits w : Nat) : Option Code :=
  if nbits ≤ 8 then
    if w < 8 then some (.cr (BitVec.ofNat 3 w)) else none
  else
    if w < 34359738368 then some (.cw (BitVec.ofNat 35 w)) else none

/-- The instruction the decoder reads from the transaction that `tableCode` lays out. -/
def decodeTableWord (nbits w : Nat) : Option Instr :=
  match tableCode nbits w with
  | some c =>
    match decode c with
    | .ok i => some i
    | .error _ => none
  | none => none

end Sys2Proof
end

