-- ==== Sys2Proof/Machine/Fetch.lean ====
section
/-! DEFINITION. Which agent moves, and on what (`spec/00_scope.md` R5, R6; `spec/45_selector_control.md`
R128; `spec/70_reset_and_hazards.md` R155, R162, R170). -/

namespace Sys2Proof.Machine

/-- What a step does. -/
inductive Fetched where
  /-- It runs the operation whose bit string is `c`, from the state `s`. -/
  | run (c : Code) (s : State)
  /-- It is no operation of the table: a reset, a raster access of the host, or nobody moves. -/
  | other (o : Outcome)

/-- A control write waits while `BUSY = 1` (R128); nothing else of the host does (R162). -/
def mustWait (op : HostOp) (s : State) : Bool :=
  match op with
  | .ctrlWrite _ => s.busy
  | .ctrlRead _ => false
  | .loadSrc _ => false
  | .storeSrc _ _ => false
  | .loadDst _ => false
  | .storeDst _ _ => false

/-- One operation of the host, from the state that no longer holds it as pending. -/
def hostMove (op : HostOp) (s : State) : Fetched :=
  match op with
  | .ctrlWrite w => .run (.cw w) s
  | .ctrlRead a => .run (.cr a) s
  | .loadSrc i => .other (hostLoadSrc i s)
  | .storeSrc i v => .other (hostStoreSrc i v s)
  | .loadDst i => .other (hostLoadDst i s)
  | .storeDst i v => .other (hostStoreDst i v s)

/-- The host's turn: its first pending operation, unless that is a control write that must wait, which
holds the host and stays pending (R128, R162; assumption 10). -/
def hostTurn (s : State) : Fetched :=
  match s.hostq with
  | [] => .other (.next s)
  | op :: rest => if mustWait op s then .other (.next s) else hostMove op { s with hostq := rest }

/-- The pipe's turn: while `BUSY = 1` a pixel step of the operation that `MODE` selects (R107, R56). -/
def pipeTurn (s : State) : Fetched :=
  if s.busy then .run (.px s.mode) s else .other (.next s)

/-- Whether the host has a pending operation that need not wait. -/
def hostReady (s : State) : Bool :=
  match s.hostq with
  | [] => false
  | op :: _ => !mustWait op s

/-- Who moves: the turn the state holds; when it holds none, the host if it can, else the pipe, so that
the pipe eventually moves (R170; assumption 21). A reset turn is the reset input (R155). -/
def fetch (s : State) : Fetched :=
  match s.turns with
  | .reset :: ts => .other (.next (resetStep { s with turns := ts }))
  | .host :: ts => hostTurn { s with turns := ts }
  | .pipe :: ts => pipeTurn { s with turns := ts }
  | [] => if hostReady s then hostTurn s else pipeTurn s

/-- The state whose next step runs the transaction `c`: it becomes the host's first pending operation and
the host has the turn; for a control write the pipe is not busy, since a write is accepted only then
(R128; assumption 7). A `PX` code is no transaction: it is selected by `MODE` with the pipe running. -/
def withCode (s : State) (c : Code) : State :=
  match c with
  | .cw w => { s with hostq := .ctrlWrite w :: s.hostq, turns := .host :: s.turns, busy := false }
  | .cr a => { s with hostq := .ctrlRead a :: s.hostq, turns := .host :: s.turns }
  | .px m => { s with mode := m, busy := true, turns := .pipe :: s.turns }

end Sys2Proof.Machine
end

