-- ==== Sys2Proof/Machine/Step.lean ====
section
/-! DEFINITION. One step of CORE: a control read, a control write, a pixel step, a reset (R6), a raster
access of the host, or no move. -/

namespace Sys2Proof.Machine

/-- Decode a bit string and run its operation; a `PX` code without an operation is refused by name (R57). -/
def runCode (c : Code) (s : State) : Outcome :=
  match decode c with
  | .ok i => exec i s
  | .error (.reservedPixelCode m) => .refused (.reservedPixelCode m)

/-- One atomic step (R6). -/
def step (s : State) : Host.Outcome State Fault Refusal :=
  match fetch s with
  | .run c s' => runCode c s'
  | .other o => o

/-- `s` with the transaction numbered `w` placed where `step` fetches next; `s` itself when the number is
no transaction. -/
def State.withFetchWord (s : State) (nbits w : Nat) : State :=
  match tableCode nbits w with
  | some c => withCode s c
  | none => s

end Sys2Proof.Machine
end

