-- ==== Sys2Proof/Machine/HostLines.lean ====
section
/-! DEFINITION. The lines of a host program (`spec/30_encoding.md` R59, R60) as abstract syntax, and the
transactions each stands for. Spelling (decimal, hexadecimal, comments) is not modelled: it reaches no state. -/

namespace Sys2Proof.Machine

/-- The five Deficiency Modes (R53). -/
inductive DeficiencyMode where
  | normal
  | deuteranopia
  | protanopia
  | tritanopia
  | grayscale
deriving DecidableEq, Repr

/-- The number of a mode (R53, D4). -/
def modeCode : DeficiencyMode → BitVec 3
  | .normal => 0#3
  | .deuteranopia => 1#3
  | .protanopia => 2#3
  | .tritanopia => 3#3
  | .grayscale => 4#3

/-- The pixel operation of a mode (R53, R56). -/
def modeOperation : DeficiencyMode → Instr
  | .normal => .pixNormal
  | .deuteranopia => .pixDeut
  | .protanopia => .pixProt
  | .tritanopia => .pixTrit
  | .grayscale => .pixGray

/-- One line of R59. -/
inductive HostLine where
  | selectMode (m : Word)
  | setSrcDim (w h : BitVec 16)
  | setDstDim (w h : BitVec 16)
  | start
  | read (a : BitVec 3)
  | write (a : BitVec 3) (d : Word)
  | reset
  | srcStore (i : Index) (v : Pixel)
  | dstStore (i : Index) (v : Pixel)
deriving DecidableEq, Repr

/-- The host operations of a line (R59); the reset line is none of them. -/
def lineOps : HostLine → List HostOp
  | .selectMode m => [.ctrlWrite (cwString 0#3 m)]
  | .setSrcDim w h => [.ctrlWrite (cwString 1#3 (dimWord h w))]
  | .setDstDim w h => [.ctrlWrite (cwString 2#3 (dimWord h w))]
  | .start => [.ctrlWrite (cwString 3#3 1#32)]
  | .read a => [.ctrlRead a]
  | .write a d => [.ctrlWrite (cwString a d)]
  | .reset => []
  | .srcStore i v => [.storeSrc i v]
  | .dstStore i v => [.storeDst i v]

/-- The turn in which a line is offered: the reset line is the reset step (R59, R155). -/
def lineTurns : HostLine → List Turn
  | .reset => [.reset]
  | .selectMode _ => [.host]
  | .setSrcDim _ _ => [.host]
  | .setDstDim _ _ => [.host]
  | .start => [.host]
  | .read _ => [.host]
  | .write _ _ => [.host]
  | .srcStore _ _ => [.host]
  | .dstStore _ _ => [.host]

/-- The pseudo-operations of R60. `waitDone polls` and `transform w h polls` name how many times the host
reads `STATUS`: R60 repeats until it sees `DONE`, which is the host's choice, not CORE's. -/
inductive PseudoLine where
  | setMode (m : Word)
  | apply
  | waitDone (polls : Nat)
  | transform (w h : BitVec 16) (polls : Nat)
deriving DecidableEq, Repr

/-- The expansions of R60. -/
def expandPseudo : PseudoLine → List HostLine
  | .setMode m => [.selectMode m]
  | .apply => [.start]
  | .waitDone polls => List.replicate polls (.read 4#3)
  | .transform w h polls =>
    [.setSrcDim w h, .setDstDim w h, .start] ++ List.replicate polls (.read 4#3)

end Sys2Proof.Machine
end

