-- ==== Sys2Proof/Machine/Instances.lean ====
section
/-! DEFINITION. Several instances of CORE running side by side (`spec/20_memory.md` R44, `spec/60_exceptions.md`
R146). `State` is one instance; a `System` is any number of them. -/

namespace Sys2Proof.Machine

/-- Any number of instances (R44, R4). Each has its own copy of everything in `State`, its own `MODE`, `SRC` and
`DST` among them; nothing that changes lies beside the instances. Their tables are read-only, so that two instances
share physical tables says no more than that the tables are equal (assumption 20). -/
structure System where
  /-- The instances. R146 gives an instance no identifier: its place in the list is the MODEL's own, and no instance
  can read it (assumption 20). -/
  insts : List State
  /-- Which instance moves at the coming steps, by its place: the MODEL's own field, since no order holds between
  instances (R44; assumption 20). -/
  order : List Nat
deriving DecidableEq, Repr

/-- `n` instances right after reset: all start in the same reset state (R146). The empty `order` is the model's:
DESIGN CHOICE (assumption 20). -/
def System.reset (n : Nat) : System where
  insts := List.replicate n State.reset
  order := []

/-- The coming moves: those of `order` and, when it is empty, one move of each instance. So an instance that can
step eventually does (R170), whatever `order` holds: DESIGN CHOICE (assumption 20). -/
def System.upcoming (y : System) : List Nat :=
  match y.order with
  | [] => List.range y.insts.length
  | k :: ks => k :: ks

/-- The instance at place `k` takes one step of its own; every other instance stays as it is (R44). A place without
an instance moves nothing. `rest` are the moves after this one. -/
def System.move (k : Nat) (rest : List Nat) (y : System) : Host.Outcome System Fault Refusal :=
  match y.insts[k]? with
  | none => .next { y with order := rest }
  | some s =>
    match step s with
    | .next t => .next { insts := y.insts.set k t, order := rest }
    | .fault r => .fault r
    | .refused r => .refused r

/-- One atomic step of the system: one step of one instance (R6, R44). -/
def System.step (y : System) : Host.Outcome System Fault Refusal :=
  match y.upcoming with
  | [] => .next y
  | k :: rest => y.move k rest

end Sys2Proof.Machine
end

