-- ==== Sys2Proof/Safety.lean ====
section
/-! DEFINITION. The terms claims use: runs of many steps, the transform of a mode, the invariants of reachable
states, the host's duties, and the second views of the datapath that the spec gives (a matrix, 32 bits). -/

namespace Sys2Proof.Machine

/-- `k` steps, stopping at the first fault or refusal. -/
def steps : Nat → State → Outcome
  | 0, s => .next s
  | k + 1, s =>
    match step s with
    | .next t => steps k t
    | .fault r => .fault r
    | .refused r => .refused r

/-- `k` steps of a system, stopping at the first fault or refusal. -/
def systemSteps : Nat → System → Host.Outcome System Fault Refusal
  | 0, y => .next y
  | k + 1, y =>
    match y.step with
    | .next z => systemSteps k z
    | .fault r => .fault r
    | .refused r => .refused r

/-- The four operations of modes 1 to 4, each with its transform (R112). -/
def filterOperations : List (Instr × (Params → Pixel → Pixel)) :=
  [(.pixDeut, transformDeut), (.pixProt, transformProt), (.pixTrit, transformTrit), (.pixGray, transformGray)]

/-- Each of the words `ws`, had at index `i`, `i + 1`, and so on, is the one the pipe takes there. -/
def lineHolds (s : State) (i : Index) (ws : List Pixel) : Prop :=
  match ws with
  | [] => True
  | w :: ws => overlay s.srcTaken i.toNat w = pipeWord i s ∧ lineHolds s (i + 1#32) ws

/-- What the line buffer holds during a frame (R22, R114): nothing with a `streaming` driver; with a `row_buffered` one
fewer than `SRC_W` words, up to the end of a row of the raster, each the right one. -/
structure LineRight (s : State) : Prop where
  streaming : s.params.driver = .streaming → s.line = []
  rows : s.params.driver = .rowBuffered → s.line.length < s.srcW.toNat ∧
    ∃ row, row ≤ s.srcH.toNat ∧ s.pix.toNat + s.line.length = row * s.srcW.toNat
  words : lineHolds s s.pix s.line

/-- What every reachable state satisfies (R11, R12, R13, R109, R113, R114, R40), and the canonical form of the two
rasters. The cache clause is for `BUSY = 1`: between frames `SELECT_MODE` may change `MODE` under a
valid pair (assumption 17). -/
structure Inv (s : State) : Prop where
  modeLegal : s.mode.toNat ≤ 4
  busyInside : s.busy = true → s.pix < s.n
  idleAtEnd : s.busy = false → s.pix = s.n
  notBoth : s.busy = true → s.done = false
  frameShape : s.busy = true → s.srcW = s.dstW ∧ s.srcH = s.dstH ∧ s.n = pixelCount s.srcW s.srcH
  cacheRight : s.busy = true → s.prevValid = true → modeTransform s.params s.mode s.prevIn = some s.prevOut
  srcCanonical : Memory.wf s.src = true
  dstCanonical : Memory.wf s.dst = true
  lineRight : s.busy = true → LineRight s

/-- A pending operation of the host stores to no word below `n`: it keeps the duties of R160 and R161 in a
frame of `n` pixels. -/
def avoidsFrame (n : BitVec 32) (op : HostOp) : Bool :=
  match op with
  | .storeSrc i _ => decide (n ≤ i)
  | .storeDst i _ => decide (n ≤ i)
  | .ctrlWrite _ => true
  | .ctrlRead _ => true
  | .loadSrc _ => true
  | .loadDst _ => true

/-- In all it still has to do the host keeps its duties in a frame of `n` pixels, and nobody pulls the reset
input. -/
def undisturbed (n : BitVec 32) (s : State) : Prop := s.hostq.all (avoidsFrame n) = true ∧ Turn.reset ∉ s.turns

/-- The source raster as the host leaves it after the operations `ops`. -/
def srcAfter (ops : List HostOp) (m : Memory) : Memory :=
  match ops with
  | [] => m
  | .storeSrc i v :: ops => srcAfter ops (memWrite m i v)
  | .storeDst _ _ :: ops => srcAfter ops m
  | .ctrlWrite _ :: ops => srcAfter ops m
  | .ctrlRead _ :: ops => srcAfter ops m
  | .loadSrc _ :: ops => srcAfter ops m
  | .loadDst _ :: ops => srcAfter ops m

/-- The destination raster as the host leaves it after the operations `ops`, the pipe aside. -/
def dstAfter (ops : List HostOp) (m : Memory) : Memory :=
  match ops with
  | [] => m
  | .storeDst i v :: ops => dstAfter ops (memWrite m i v)
  | .storeSrc _ _ :: ops => dstAfter ops m
  | .ctrlWrite _ :: ops => dstAfter ops m
  | .ctrlRead _ :: ops => dstAfter ops m
  | .loadSrc _ :: ops => dstAfter ops m
  | .loadDst _ :: ops => dstAfter ops m

/-- Every destination word below `PIX` is the frame's result there: the transform of the word the pipe takes, unless a
store of the host outlives it (R12, R115, R160, R161). -/
def prefixDone (s : State) : Prop :=
  ∀ i : Index, i < s.pix →
    ∃ r, modeTransform s.params s.mode (pipeWord i s) = some r ∧ memRead s.dst i = settledWord i r s

/-- What holds of a frame in progress beside `Inv`: the words below `PIX` are done, the rest of the frame is as it was
before (R12, R38 item 4), and the record of the old words is canonical. -/
structure FrameSound (s : State) : Prop where
  written : s.busy = true → prefixDone s
  waiting : s.busy = true → ∀ i : Index, ¬ i < s.pix → i < s.n → memRead s.dst i = memRead s.dstBefore i
  beforeCanonical : Memory.wf s.dstBefore = true

/-- Two states that differ at most in the previous-pixel cache (R109). -/
def sameButCache (s t : State) : Prop :=
  t = { s with prevValid := t.prevValid, prevIn := t.prevIn, prevOut := t.prevOut }

/-- Two states that differ at most in the driver form and its line buffer (R22, R114). -/
def sameButDriver (s t : State) : Prop :=
  t = { s with params := { s.params with driver := t.params.driver }, line := t.line }

/-! ### Second views of the datapath -/

/-- `S_r` in 32-bit two's complement (R84). -/
def sumRed32 (k : Preset) (r g : Linear) : BitVec 32 :=
  k.k1.signExtend 32 * r.setWidth 32 + k.k2.signExtend 32 * g.setWidth 32

/-- `S_b` in 32-bit two's complement (R84); the blue coefficient is a left shift by 15 (R58). -/
def sumBlue32 (k : Preset) (r g b : Linear) : BitVec 32 :=
  k.k3.signExtend 32 * r.setWidth 32 - k.k3.signExtend 32 * g.setWidth 32 + (b.setWidth 32 <<< 15)

/-- The clamp on a signed 32-bit value (R77). -/
def clamp32 (z : BitVec 32) : Channel :=
  if z.slt 0#32 then 0#8 else if (255#32).slt z then 255#8 else z.setWidth 8

/-- The red-green transform on a 32-bit datapath with arithmetic shifts (R84, R82). -/
def transformRedGreen32 (ps : Params) (k : Preset) (p : Pixel) : Pixel :=
  let r := lin ps (redOf p)
  let g := lin ps (greenOf p)
  let b := lin ps (blueOf p)
  let red := enc ps (clamp32 ((sumRed32 k r g).sshiftRight 22))
  let blue := enc ps (clamp32 ((sumBlue32 k r g b).sshiftRight 22))
  pack red red blue

/-- A row of a 3×3 integer matrix. -/
structure IntRow where
  x : Int
  y : Int
  z : Int
deriving DecidableEq, Repr

/-- A row times the column `(r_lin, g_lin, b_lin)`. -/
def rowSum (ps : Params) (row : IntRow) (p : Pixel) : Int :=
  row.x * linInt ps (redOf p) + row.y * linInt ps (greenOf p) + row.z * linInt ps (blueOf p)

/-- Three rows, each followed by a scaling, `CLAMP255` and `ENC` (R85, R104). -/
def matrixTransform (ps : Params) (scale : Int → Int) (red green blue : IntRow) (p : Pixel) : Pixel :=
  pack (enc ps (clamp255 (scale (rowSum ps red p)))) (enc ps (clamp255 (scale (rowSum ps green p))))
    (enc ps (clamp255 (scale (rowSum ps blue p))))

end Sys2Proof.Machine
end

