-- ==== Sys2Proof/Certificates/Slice0/Obligations.lean ====
section
/-! DEFINITION. The statements for the provers. Each names the rule of `spec/` it comes from; a clause that is
the model's own choice names its log entry. -/

open Sys2Proof Sys2Proof.Machine

/-! ### Encoding (`spec/30_encoding.md`) -/

/-- R56: decoding the encoding of a well-formed operation gives the operation back, every operand included. -/
def Obligations.DecodeOfEncodeIsTheOperation : Prop :=
  ∀ i : Instr, i.wellFormed = true → decode (encode i) = .ok i

/-- R56: whatever a bit string decodes to is well-formed and encodes to that bit string again. -/
def Obligations.EncodeOfDecodeIsTheBitString : Prop :=
  ∀ (c : Code) (i : Instr), decode c = .ok i → encode i = c ∧ i.wellFormed = true

/-- R56, R57: every control write and every control read is an operation, and of the eight `PX` codes exactly
5, 6 and 7 are rejected, by name. -/
def Obligations.OnlyReservedPixelCodesAreRejected : Prop :=
  (∀ w : BitVec 35, ∃ i, decode (.cw w) = .ok i ∧ i.isWrite = true) ∧
  (∀ a : BitVec 3, ∃ i, decode (.cr a) = .ok i ∧ i.isWrite = false) ∧
  (∀ m : BitVec 3, m.toNat ≤ 4 → ∃ i, decode (.px m) = .ok i) ∧
  (∀ m : BitVec 3, 4 < m.toNat → decode (.px m) = .error (.reservedPixelCode m))

/-- R56 and the words of programs P1 and P3 (`spec/95_test_vectors.md`): a few words of every format. That
`decodeTableWord` reads an 8-bit number as a control read, and not as a `PX` code, is the model's choice
(assumption 8). -/
def Obligations.SampleWordsDecode : Prop :=
  decodeTableWord 40 0x000000001 = some (.selectMode 1) ∧
  decodeTableWord 40 0x100020004 = some (.setSrcDim 2 4) ∧
  decodeTableWord 40 0x2FFFF0000 = some (.setDstDim 0xFFFF 0) ∧
  decodeTableWord 40 0x3FFFFFFFF = some (.transform 0x7FFFFFFF) ∧
  decodeTableWord 40 0x3FFFFFFFE = some (.ctrlNop 0x7FFFFFFF) ∧
  decodeTableWord 40 0x712345678 = some (.wrIgnored 7 0x12345678) ∧
  decodeTableWord 8 4 = some .rdStatus ∧
  decodeTableWord 8 6 = some (.rdZeroRes67 6) ∧
  decode (.px 3) = .ok .pixTrit

/-! ### Steps and decoding (`spec/00_scope.md` R6; assumptions 7 and 10) -/

/-- R55, R128: in the host's turn an accepted control write and any control read run as the operation their bits
decode to, from the state that no longer holds them as pending. That without a turn the host goes first is the model's
choice (assumption 21). -/
def Obligations.HostTurnRunsTheTransaction : Prop :=
  ∀ (s : State) (rest : List HostOp),
    (∀ w i, s.hostq = .ctrlWrite w :: rest → s.busy = false → decode (.cw w) = .ok i →
      (∀ ts, s.turns = .host :: ts → step s = exec i { s with turns := ts, hostq := rest }) ∧
      (s.turns = [] → step s = exec i { s with hostq := rest })) ∧
    (∀ a i, s.hostq = .ctrlRead a :: rest → decode (.cr a) = .ok i →
      (∀ ts, s.turns = .host :: ts → step s = exec i { s with turns := ts, hostq := rest }) ∧
      (s.turns = [] → step s = exec i { s with hostq := rest }))

/-- R107, R112: while `BUSY = 1` the pipe's turn runs the operation `MODE` selects. The model's choices: without a turn
the pipe moves when the host has nothing pending or waits with a control write (assumption 21); `MODE` 5 to 7, which R57
says cannot occur, is refused (assumption 12). -/
def Obligations.PipeTurnRunsThePixelOperation : Prop :=
  ∀ s : State, s.busy = true →
    (∀ i, decode (.px s.mode) = .ok i →
      (∀ ts, s.turns = .pipe :: ts → step s = exec i { s with turns := ts }) ∧
      (s.turns = [] → (s.hostq = [] ∨ ∃ w rest, s.hostq = .ctrlWrite w :: rest) → step s = exec i s)) ∧
    (∀ ts, s.turns = .pipe :: ts → 4 < s.mode.toNat → step s = .refused (.reservedPixelCode s.mode))

/-- The model's interface (assumption 7): a transaction placed by `withFetchWord` is what the next step runs; only a
control write needs `BUSY = 0` for that. -/
def Obligations.PlacedWordIsTheNextOperation : Prop :=
  ∀ (s : State) (nbits w : Nat) (i : Instr), decodeTableWord nbits w = some i →
    step (s.withFetchWord nbits w) = exec i { s with busy := s.busy && !i.isWrite }

/-! ### Control writes (`spec/45_selector_control.md`) -/

/-- R120: an accepted `SELECT_MODE` sets `MODE` when the whole word is at most 4, else records `InvalidMode`;
nothing else changes. -/
def Obligations.SelectModeSetsModeOrRaises : Prop :=
  ∀ (s : State) (d : BitVec 32), s.busy = false →
    exec (.selectMode d) s =
      .next (if d.toNat ≤ 4 then { s with mode := d.extractLsb' 0 3 } else { s with errMode := true })

/-- R122, R123: accepted writes of `SRC_DIM` and `DST_DIM` store width and height, whatever the word. -/
def Obligations.DimensionWritesStoreBothFields : Prop :=
  ∀ (s : State) (d : BitVec 32), s.busy = false →
    decode (.cw (1#3 ++ d)) = .ok (.setSrcDim (d.extractLsb' 16 16) (d.extractLsb' 0 16)) ∧
    decode (.cw (2#3 ++ d)) = .ok (.setDstDim (d.extractLsb' 16 16) (d.extractLsb' 0 16)) ∧
    (∀ h w, exec (.setSrcDim h w) s = .next { s with srcW := w, srcH := h }) ∧
    (∀ h w, exec (.setDstDim h w) s = .next { s with dstW := w, dstH := h })

/-- R121: an accepted `TRANSFORM` records `DimensionMismatch`, or ends an empty frame at once, or starts a frame;
`N` is the exact product. While `BUSY = 1` it is not accepted. The model's own records of the frame (`dstBefore`,
`srcTaken`, `dstKept`) and the line buffer are free here; `FrameRecordsFollowTheHost` says what they are. -/
def Obligations.TransformStartsAFrameOrRaises : Prop :=
  ∀ (s : State) (x : BitVec 31),
    (s.busy = true → exec (.transform x) s = .next s) ∧
    (s.busy = false →
      (s.srcW ≠ s.dstW ∨ s.srcH ≠ s.dstH → exec (.transform x) s = .next { s with errDim := true }) ∧
      (s.srcW = s.dstW → s.srcH = s.dstH →
        ∃ (n : BitVec 32) (m : Memory) (a b : List Cell) (l : List Pixel), n.toNat = s.srcW.toNat * s.srcH.toNat ∧
          exec (.transform x) s =
            .next (if n = 0#32 then { s with n := n, pix := 0#32, prevValid := false, done := true }
              else { s with
                n := n, pix := 0#32, prevValid := false, done := false, busy := true, line := l,
                dstBefore := m, srcTaken := a, dstKept := b })))

/-- R124, R127: `CTRL_NOP` and writes to `STATUS` or a reserved register change nothing. -/
def Obligations.IgnoredWritesChangeNothing : Prop :=
  ∀ (s : State) (x : BitVec 31) (a : BitVec 3) (d : BitVec 32),
    exec (.ctrlNop x) s = .next s ∧ exec (.wrIgnored a d) s = .next s

/-- R128, R162: while `BUSY = 1` a control write has no effect, and in the host's turn it stays pending. -/
def Obligations.ControlWritesWaitWhileBusy : Prop :=
  ∀ s : State, s.busy = true →
    (∀ i : Instr, i.isWrite = true → exec i s = .next s) ∧
    (∀ w rest ts, s.hostq = .ctrlWrite w :: rest → s.turns = .host :: ts → step s = .next { s with turns := ts })

/-! ### Control reads (`spec/45_selector_control.md`; the answer is the model's field `reply`, assumption 9) -/

/-- R125: the reads of `MODE`, `SRC_DIM`, `DST_DIM` and of the registers that read 0, at any time and with no side
effect; while `BUSY = 1` no operation changes the three registers. -/
def Obligations.ReadsReturnTheirRegister : Prop :=
  (∀ s : State,
    exec .rdMode s = .next { s with reply := some (s.mode.setWidth 32) } ∧
    exec .rdSrcDim s = .next { s with reply := some (s.srcH ++ s.srcW) } ∧
    exec .rdDstDim s = .next { s with reply := some (s.dstH ++ s.dstW) } ∧
    exec .rdZeroCtrl s = .next { s with reply := some 0#32 } ∧
    exec .rdZeroRes5 s = .next { s with reply := some 0#32 } ∧
    ∀ a, exec (.rdZeroRes67 a) s = .next { s with reply := some 0#32 }) ∧
  (∀ (s t : State) (i : Instr), s.busy = true → exec i s = .next t →
    t.mode = s.mode ∧ t.srcW = s.srcW ∧ t.srcH = s.srcH ∧ t.dstW = s.dstW ∧ t.dstH = s.dstH)

/-- R126: `RD_STATUS` returns `BUSY + 2*DONE + 256*ERR_MODE + 512*ERR_DIM` and has no side effect; in a state that
meets the invariant `BUSY` and `DONE` are never both set. -/
def Obligations.StatusReadsTheFlags : Prop :=
  ∀ s : State,
    (∃ v : Word, exec .rdStatus s = .next { s with reply := some v } ∧
      v.toNat = s.busy.toNat + 2 * s.done.toNat + 256 * s.errMode.toNat + 512 * s.errDim.toNat) ∧
    (Inv s → ¬ (s.busy = true ∧ s.done = true))

/-! ### Exceptions (`spec/60_exceptions.md`) -/

/-- R135 to R138: an error bit changes only when an accepted `SELECT_MODE` has a word above 4, or an accepted
`TRANSFORM` meets different dimensions; then, always, that bit is set and nothing else changes. -/
def Obligations.OnlyTwoOperationsRaise : Prop :=
  (∀ (s t : State) (i : Instr), exec i s = .next t →
    (t.errMode ≠ s.errMode →
      t = { s with errMode := true } ∧ s.busy = false ∧ ∃ d, i = .selectMode d ∧ 4 < d.toNat) ∧
    (t.errDim ≠ s.errDim →
      t = { s with errDim := true } ∧ s.busy = false ∧ (s.srcW ≠ s.dstW ∨ s.srcH ≠ s.dstH) ∧
        ∃ x, i = .transform x)) ∧
  (∀ (s : State) (d : BitVec 32), s.busy = false → 4 < d.toNat →
    exec (.selectMode d) s = .next { s with errMode := true }) ∧
  (∀ (s : State) (x : BitVec 31), s.busy = false → (s.srcW ≠ s.dstW ∨ s.srcH ≠ s.dstH) →
    exec (.transform x) s = .next { s with errDim := true })

/-- R139, R16: a step that is no reset keeps a set error bit set; a reset clears both. -/
def Obligations.ErrorBitsStayUntilReset : Prop :=
  ∀ s t : State, step s = .next t →
    (s.turns.head? ≠ some .reset →
      (s.errMode = true → t.errMode = true) ∧ (s.errDim = true → t.errDim = true)) ∧
    (s.turns.head? = some .reset → t.errMode = false ∧ t.errDim = false)

/-- R139, R16: no operation reads the error bits but `RD_STATUS`: an operation does the same whatever they hold. -/
def Obligations.ErrorBitsBlockNothing : Prop :=
  ∀ (s t : State) (i : Instr) (a b : Bool), exec i s = .next t →
    ∃ t', exec i { s with errMode := a, errDim := b } = .next t' ∧
      t = { t' with errMode := t.errMode, errDim := t.errDim, reply := t.reply } ∧
      (i ≠ .rdStatus → t.reply = t'.reply)

/-! ### The pixel step (`spec/44_raster_pixel_pipe.md`) -/

/-- R107, R110, R113: `PIX.NORMAL` copies the whole word at `PIX`, leaves the cache alone, advances `PIX`, and ends
the frame on the last pixel. The word is the one in `SRC`, and it lands in `DST`, wherever the host has kept its duties
of R160 and R161 in this frame; where it has not, the records of assumption 13 say which word. -/
def Obligations.NormalModeCopiesTheWord : Prop :=
  ∀ s : State, s.busy = true → s.pix < s.n →
    ∀ p d : Pixel, p = takenWord s → d = settledWord s.pix p s →
      exec .pixNormal s =
        .next { s with
          dst := memWrite s.dst s.pix d
          pix := s.pix + 1#32
          line := (wordsAtHand s).tail
          busy := decide (s.pix + 1#32 ≠ s.n)
          done := decide (s.pix + 1#32 = s.n) || s.done } ∧
      (Inv s ∨ s.params.driver = .streaming → s.srcTaken = [] → p = memRead s.src s.pix) ∧ (s.dstKept = [] → d = p)

/-- R107, R108, R112, R113: a pixel operation of modes 1 to 4 writes the cached output when the cache is valid and
the whole word is the preceding one, else its transform; it fills the cache and advances `PIX`. The word is the one in
`SRC`, and the result lands in `DST`, wherever the host has kept its duties of R160 and R161 in this frame; where it has
not, the records of assumption 13 say which word. `DriverReadsAWordOrARow` says what the driver has read. -/
def Obligations.FilterModesWriteCachedOrComputed : Prop :=
  ∀ op ∈ filterOperations, ∀ s : State, s.busy = true → s.pix < s.n →
    ∀ p q d : Pixel, p = takenWord s →
      q = (if s.prevValid = true ∧ p = s.prevIn then s.prevOut else op.2 s.params p) →
      d = settledWord s.pix q s →
      exec op.1 s =
        .next { s with
          dst := memWrite s.dst s.pix d
          pix := s.pix + 1#32
          line := (wordsAtHand s).tail
          prevIn := p
          prevOut := q
          prevValid := true
          busy := decide (s.pix + 1#32 ≠ s.n)
          done := decide (s.pix + 1#32 = s.n) || s.done } ∧
      (Inv s ∨ s.params.driver = .streaming → s.srcTaken = [] → p = memRead s.src s.pix) ∧ (s.dstKept = [] → d = q)

/-- R107: a pixel step is enabled exactly when `BUSY = 1`: otherwise a pixel operation does nothing. The model's choice
(assumption 11) for R37, "An index at or beyond `N` is never read or written": a pixel operation with `PIX >= N` and
`BUSY = 1` faults. -/
def Obligations.PixelOperationsOutsideAFrame : Prop :=
  ∀ s : State,
    (s.busy = false → exec .pixNormal s = .next s ∧ ∀ op ∈ filterOperations, exec op.1 s = .next s) ∧
    (s.busy = true → ¬ s.pix < s.n →
      exec .pixNormal s = .fault (.pixelOutsideRaster s.pix) ∧
      ∀ op ∈ filterOperations, exec op.1 s = .fault (.pixelOutsideRaster s.pix))

/-- R35, R37: whatever operation runs, the source raster stays as it is, and a destination word changes only at
`PIX`, below `N`, while `BUSY = 1`; control writes store nothing there, and the canonical form is kept. -/
def Obligations.OperationsStoreOnlyAtPix : Prop :=
  ∀ (s t : State) (i : Instr), exec i s = .next t →
    t.src = s.src ∧
    (∀ j : Index, memRead t.dst j ≠ memRead s.dst j → s.busy = true ∧ j = s.pix ∧ s.pix < s.n) ∧
    (i.isWrite = true → t.dst = s.dst) ∧
    (Memory.wf s.dst = true → Memory.wf t.dst = true)

/-- R111: in modes 1 to 4 every word a pixel step writes has alpha `0xFF`, whatever the source alpha. (Where a store of
the host into the frame outlives the pipe's word, `DST` holds the host's: R161, assumption 13.) -/
def Obligations.FilterModesWriteOpaqueWords : Prop :=
  ∀ (s t : State) (i : Instr), Inv s → s.busy = true → s.mode ≠ 0#3 → decode (.px s.mode) = .ok i →
    exec i s = .next t →
    ∃ q : Pixel, q.extractLsb' 24 8 = 0xFF#8 ∧ memRead t.dst s.pix = settledWord s.pix q s ∧
      (s.dstKept = [] → memRead t.dst s.pix = q)

/-- R109: hit or miss, a pixel step writes the transform of the word it takes: the source word, wherever the host has
kept its duties of R160 and R161 in this frame (else assumption 13). -/
def Obligations.PixelStepWritesTheTransform : Prop :=
  ∀ (s : State) (i : Instr), Inv s → s.busy = true → decode (.px s.mode) = .ok i →
    ∃ t q, exec i s = .next t ∧ modeTransform s.params s.mode (pipeWord s.pix s) = some q ∧
      memRead t.dst s.pix = settledWord s.pix q s ∧
      (s.srcTaken = [] → pipeWord s.pix s = memRead s.src s.pix) ∧ (s.dstKept = [] → memRead t.dst s.pix = q)

/-- R114, R22 (that a row is read in the step of its first pixel is the model's choice, assumption 18): a `streaming`
driver reads the one word and has no line buffer; a `row_buffered` one reads the `SRC_W` words of a row when its line
buffer is empty, and takes the first word of the buffer, which goes from it, when it is not. -/
def Obligations.DriverReadsAWordOrARow : Prop :=
  ∀ s : State, s.busy = true → s.pix < s.n → s.mode.toNat ≤ 4 →
    ∃ i t, decode (.px s.mode) = .ok i ∧ exec i s = .next t ∧
      (s.params.driver = .streaming → takenWord s = pipeWord s.pix s ∧ t.line = []) ∧
      (s.params.driver = .rowBuffered → s.line = [] → s.srcW ≠ 0#16 →
        takenWord s = pipeWord s.pix s ∧ t.line.length + 1 = s.srcW.toNat ∧
        ∀ k, k + 1 < s.srcW.toNat → t.line[k]? = some (memRead s.src (s.pix + BitVec.ofNat 32 (k + 1)))) ∧
      (s.params.driver = .rowBuffered → ∀ w ws, s.line = w :: ws →
        takenWord s = overlay s.srcTaken s.pix.toNat w ∧ t.line = ws)

/-- R109, R22, R114: the cache is invisible, and so are the driver form and its line buffer: two states that meet the
invariant and differ only in the cache, or only in the driver form and the line buffer, take equal steps, and differ
only in the same again. -/
def Obligations.CacheAndDriverAreInvisible : Prop :=
  (∀ s s' t : State, Inv s → Inv s' → sameButCache s s' → step s = .next t →
    ∃ t', step s' = .next t' ∧ sameButCache t t') ∧
  (∀ s s' t : State, Inv s → Inv s' → sameButDriver s s' → step s = .next t →
    ∃ t', step s' = .next t' ∧ sameButDriver t t')

/-! ### The datapath (`spec/40_gamma_tables.md` to `spec/43_csc_grayscale.md`) -/

/-- R77: `CLAMP255` saturates an integer to `0 .. 255`. -/
def Obligations.ClampSaturates : Prop :=
  ∀ z : Int, ((clamp255 z).toNat : Int) = if z < 0 then 0 else if z > 255 then 255 else z

/-- R51, R52: a pixel word is its four channels, and `PACK` is `0xFF000000 + r*65536 + g*256 + b`. -/
def Obligations.PixelWordIsItsChannels : Prop :=
  (∀ p : Pixel, p.toNat =
    (alphaOf p).toNat * 16777216 + (redOf p).toNat * 65536 + (greenOf p).toNat * 256 + (blueOf p).toNat) ∧
  (∀ r g b : Channel, (pack r g b).toNat = 0xFF000000 + r.toNat * 65536 + g.toNat * 256 + b.toNat)

/-- R82: the shift is the floor of the quotient by `2^22`, for sums of either sign. -/
def Obligations.ShiftIsFloorOfTheQuotient : Prop :=
  (∀ (k : Preset) (r g b : Int),
    redBlind k r g = ⌊(sumRed k r g : ℚ) / 4194304⌋ ∧ blueBlind k r g b = ⌊(sumBlue k r g b : ℚ) / 4194304⌋) ∧
  (-1 : Int) >>> (22 : Nat) = -1 ∧ (-4194304 : Int) >>> (22 : Nat) = -1 ∧ (-4194305 : Int) >>> (22 : Nat) = -2 ∧
  (-19469540 : Int) >>> (22 : Nat) = -5

/-- R18, R58: the preset table has the two rows of the rule, at modes 1 and 2, and no other. -/
def Obligations.PresetTableHasTwoRows : Prop :=
  (∃ k, presetRow 1#3 = some k ∧ k.k1.toInt = 9591 ∧ k.k2.toInt = 23173 ∧ k.k3.toInt = -730) ∧
  (∃ k, presetRow 2#3 = some k ∧ k.k1.toInt = 3683 ∧ k.k2.toInt = 29084 ∧ k.k3.toInt = 131) ∧
  (∀ m : BitVec 3, m ≠ 1#3 → m ≠ 2#3 → presetRow m = none) ∧
  (∀ ps p, (presetRow 1#3).map (fun k => transformRedGreen ps k p) = some (transformDeut ps p)) ∧
  (∀ ps p, (presetRow 2#3).map (fun k => transformRedGreen ps k p) = some (transformProt ps p))

/-- R85, R104: the red-green and the grayscale variant are integer matrices, each row scaled, clamped and encoded;
for every table contents. -/
def Obligations.VariantsAreIntegerMatrices : Prop :=
  ∀ (ps : Params) (p : Pixel),
    transformDeut ps p =
      matrixTransform ps (· >>> (22 : Nat)) ⟨9591, 23173, 0⟩ ⟨9591, 23173, 0⟩ ⟨-730, 730, 32768⟩ p ∧
    transformProt ps p =
      matrixTransform ps (· >>> (22 : Nat)) ⟨3683, 29084, 0⟩ ⟨3683, 29084, 0⟩ ⟨131, -131, 32768⟩ p ∧
    transformGray ps p =
      matrixTransform ps (· / 2560000) ⟨2126, 7152, 722⟩ ⟨2126, 7152, 722⟩ ⟨2126, 7152, 722⟩ p

/-- R84: for any table contents and both presets no sum leaves 32 signed bits, so a 32-bit two's-complement
datapath gives the same words; the ranges are the rule's. -/
def Obligations.RedGreenFits32Bits : Prop :=
  ∀ (ps : Params) (p : Pixel) (r g b : Int),
    r = linInt ps (redOf p) → g = linInt ps (greenOf p) → b = linInt ps (blueOf p) →
    (0 ≤ sumRed presetDeut r g ∧ sumRed presetDeut r g ≤ 1073577988) ∧
    (-23919910 ≤ sumBlue presetDeut r g b ∧ sumBlue presetDeut r g b ≤ 1097628966) ∧
    (0 ≤ redBlind presetDeut r g ∧ redBlind presetDeut r g ≤ 255) ∧
    (-6 ≤ blueBlind presetDeut r g b ∧ blueBlind presetDeut r g b ≤ 261) ∧
    (0 ≤ sumRed presetProt r g ∧ sumRed presetProt r g ≤ 1073676289) ∧
    (-4292477 ≤ sumBlue presetProt r g b ∧ sumBlue presetProt r g b ≤ 1078001533) ∧
    (0 ≤ redBlind presetProt r g ∧ redBlind presetProt r g ≤ 255) ∧
    (-2 ≤ blueBlind presetProt r g b ∧ blueBlind presetProt r g b ≤ 257) ∧
    (ps.fwd = fwdReference →
      (-5 ≤ blueBlind presetDeut r g b ∧ blueBlind presetDeut r g b ≤ 260) ∧
      (0 ≤ blueBlind presetProt r g b ∧ blueBlind presetProt r g b ≤ 255)) ∧
    transformRedGreen32 ps presetDeut p = transformDeut ps p ∧
    transformRedGreen32 ps presetProt p = transformProt ps p

/-- R86: the properties of the red-green variant, for every table contents; the last holds whatever the
coefficients are. -/
def Obligations.RedGreenProperties : Prop :=
  (∀ T ∈ [transformDeut, transformProt], ∀ (ps : Params) (p : Pixel),
    redOf (T ps p) = greenOf (T ps p) ∧ alphaOf (T ps p) = 255#8 ∧
    ∀ q : Pixel, q.extractLsb' 0 24 = p.extractLsb' 0 24 → T ps q = T ps p) ∧
  (∀ (ps : Params) (k : Preset) (p : Pixel), greenOf p = redOf p →
    sumBlue k (linInt ps (redOf p)) (linInt ps (greenOf p)) (linInt ps (blueOf p)) =
      32768 * linInt ps (blueOf p) ∧
    blueOf (transformRedGreen ps k p) = enc ps (clamp255 (linInt ps (blueOf p) >>> (7 : Nat))))

/-- R101, R102: the grayscale bucket is the floor of the exact luminance over 256, in either order of truncation; it
stays in `0 .. 127`, so the clamp never acts. -/
def Obligations.GrayscaleBucketIsExact : Prop :=
  ∀ (ps : Params) (p : Pixel) (r g b : Int),
    r = linInt ps (redOf p) → g = linInt ps (greenOf p) → b = linInt ps (blueOf p) →
    grayBucket r g b = ⌊(0.2126 * (r : ℚ) + 0.7152 * (g : ℚ) + 0.0722 * (b : ℚ)) / 256⌋ ∧
    grayBucket r g b = sumGray r g b / 10000 / 256 ∧
    0 ≤ sumGray r g b ∧ sumGray r g b ≤ 327670000 ∧
    0 ≤ grayBucket r g b ∧ grayBucket r g b ≤ 127 ∧
    ((clamp255 (grayBucket r g b)).toNat : Int) = grayBucket r g b

/-- R103: the properties of the grayscale variant, for every table contents. -/
def Obligations.GrayscaleProperties : Prop :=
  ∀ (ps : Params) (p : Pixel),
    redOf (transformGray ps p) = greenOf (transformGray ps p) ∧
    greenOf (transformGray ps p) = blueOf (transformGray ps p) ∧
    alphaOf (transformGray ps p) = 255#8 ∧
    (∀ q : Pixel, q.extractLsb' 0 24 = p.extractLsb' 0 24 → transformGray ps q = transformGray ps p) ∧
    (∀ c : Channel, redOf p = c → greenOf p = c → blueOf p = c →
      sumGray (linInt ps (redOf p)) (linInt ps (greenOf p)) (linInt ps (blueOf p)) = 10000 * linInt ps c ∧
      grayBucket (linInt ps (redOf p)) (linInt ps (greenOf p)) (linInt ps (blueOf p)) = linInt ps c >>> (8 : Nat))

/-- R97: what holds of the tritan variant for every value of its open constants. -/
def Obligations.TritanProperties : Prop :=
  ∀ (ps : Params) (p : Pixel),
    alphaOf (transformTrit ps p) = 255#8 ∧
    ((redOf (transformTrit ps p)).toNat ≤ 255 ∧ (greenOf (transformTrit ps p)).toNat ≤ 255 ∧
      (blueOf (transformTrit ps p)).toNat ≤ 255) ∧
    ∀ q : Pixel, q.extractLsb' 0 24 = p.extractLsb' 0 24 → transformTrit ps q = transformTrit ps p

/-- R92, R93, R94: the three stages of the tritan variant, written out: the cone responses; set 1 below the threshold,
set 2 at it, above it, and when `L = 0` (the spec's own choices, its decisions D14 and D15); and the scaled components. -/
def Obligations.TritanStages : Prop :=
  ∀ (t : TriParams) (r g b l m : Rat),
    (lms t ⟨r, g, b⟩).x = (t.a.row1.x * r + t.a.row1.y * g + t.a.row1.z * b) / 32767 ∧
    (lms t ⟨r, g, b⟩).y = (t.a.row2.x * r + t.a.row2.y * g + t.a.row2.z * b) / 32767 ∧
    (lms t ⟨r, g, b⟩).z = (t.a.row3.x * r + t.a.row3.y * g + t.a.row3.z * b) / 32767 ∧
    (l ≠ 0 → m / l < t.t → substS t l m = t.p1 * l + t.q1 * m) ∧
    (l ≠ 0 → t.t ≤ m / l → substS t l m = t.p2 * l + t.q2 * m) ∧
    (l = 0 → substS t l m = t.p2 * l + t.q2 * m) ∧
    (rgb255 t ⟨r, g, b⟩).x = 255 * (t.b.row1.x * r + t.b.row1.y * g + t.b.row1.z * b) ∧
    (rgb255 t ⟨r, g, b⟩).y = 255 * (t.b.row2.x * r + t.b.row2.y * g + t.b.row2.z * b) ∧
    (rgb255 t ⟨r, g, b⟩).z = 255 * (t.b.row3.x * r + t.b.row3.y * g + t.b.row3.z * b)

/-- R90 with R92 to R95: the tritan variant from the pixel word to the packed result, its constants free. The third
cone response is not among the terms: it is discarded. -/
def Obligations.TritanTransformWrittenOut : Prop :=
  ∀ (ps : Params) (p : Pixel) (a b : Mat3) (r g bl l m s : Rat), a = ps.tri.a → b = ps.tri.b →
    r = ((lin ps (redOf p)).toNat : Rat) → g = ((lin ps (greenOf p)).toNat : Rat) → bl = ((lin ps (blueOf p)).toNat : Rat) →
    l = (a.row1.x * r + a.row1.y * g + a.row1.z * bl) / 32767 →
    m = (a.row2.x * r + a.row2.y * g + a.row2.z * bl) / 32767 →
    s = (if l ≠ 0 ∧ m / l < ps.tri.t then ps.tri.p1 * l + ps.tri.q1 * m else ps.tri.p2 * l + ps.tri.q2 * m) →
    transformTrit ps p =
      pack (triOut ps (255 * (b.row1.x * l + b.row1.y * m + b.row1.z * s)))
        (triOut ps (255 * (b.row2.x * l + b.row2.y * m + b.row2.z * s)))
        (triOut ps (255 * (b.row3.x * l + b.row3.y * m + b.row3.z * s)))

/-- R95 and conflict C4: out-of-range components bypass `INV_LUT`, the rest are looked up at their floor; it is
clamp-then-look-up exactly when `INV_LUT` maps 0 to 0 and 255 to 255. -/
def Obligations.TritanOutputRule : Prop :=
  ∀ ps : Params,
    (∀ c : Rat,
      (c < 0 → triOut ps c = 0#8) ∧ (255 < c → triOut ps c = 255#8) ∧
      (0 ≤ c → c ≤ 255 → ∃ v : Channel, (v.toNat : Int) = ⌊c⌋ ∧ triOut ps c = enc ps v)) ∧
    ((∀ c : Rat, triOut ps c = enc ps (clamp255 ⌊c⌋)) ↔ enc ps 0#8 = 0#8 ∧ enc ps 255#8 = 255#8)

/-- R71, R72, R74, R75: every entry of the reference `FWD_LUT` is the floor of the forward law, and every entry of the
reference `INV_LUT` the floor of the inverse law. -/
def Obligations.ReferenceTablesFollowTheirLaws : Prop :=
  (∀ i : Fin 256, ((fwdReference[i].toNat : ℤ)) =
    ⌊(32767 : ℝ) * (0.992052 * ((i.val : ℝ) / 255) ^ (2.2 : ℝ) + 0.003974)⌋) ∧
  (∀ i : Fin 256, ((invReference[i].toNat : ℤ)) =
    ⌊(255 : ℝ) * ((i.val : ℝ) / 255) ^ (1 / 2.2 : ℝ)⌋)

/-- R79: facts of the reference contents: both tables are non-decreasing, with the ends the rule gives, and a round
trip through both is not the identity. -/
def Obligations.ReferenceTableFacts : Prop :=
  (∀ i : Fin 255, fwdReference[i.val].toNat ≤ fwdReference[i.val + 1].toNat) ∧
  fwdReference[0] = 130 ∧ fwdReference[1] = 130 ∧ fwdReference[2] = 130 ∧ fwdReference[255] = 32636 ∧
  (∀ i : Fin 256, fwdReference[i.val] ≠ 0 ∧ fwdReference[i.val] ≠ 32767) ∧
  (∀ i : Fin 255, invReference[i.val].toNat ≤ invReference[i.val + 1].toNat) ∧
  invReference[0] = 0 ∧ invReference[1] = 20 ∧ invReference[255] = 255 ∧
  ∃ i : Fin 256, (invReference[(fwdReference[i.val].toNat / 128) % 256]'(Nat.mod_lt _ (by decide))).toNat ≠ i.val

/-- The examples of R81 and R100, for every tritan constants and driver form, with the reference tables. -/
def Obligations.WorkedExamplesOfTheTransforms : Prop :=
  ∀ (tri : TriParams) (d : Driver) (ps : Params),
    ps = { fwd := fwdReference, inv := invReference, tri := tri, driver := d } →
    transformDeut ps 0xFFFF0000 = 0xFF929200 ∧ transformProt ps 0xFFFF0000 = 0xFF5E5E1C ∧
    transformGray ps 0xFF00FF00 = 0xFF9F9F9F ∧ transformGray ps 0xFFFFFFFF = 0xFFB9B9B9

/-! ### Reset, invariants and whole frames -/

/-- R23, R155, R157: a reset turn, in any state, gives every register its reset value and leaves the tables, the source
and, outside a frame in progress, the destination alone; each word of an abandoned frame is the one from before the
frame or the frame's result. `PREV_IN` and `PREV_OUT` are not claimed: the spec leaves them open. -/
def Obligations.ResetGivesTheResetValues : Prop :=
  ∀ (s : State) (ts : List Turn), s.turns = .reset :: ts →
    ∃ t, step s = .next t ∧
      t.mode = 0#3 ∧ t.srcW = 0#16 ∧ t.srcH = 0#16 ∧ t.dstW = 0#16 ∧ t.dstH = 0#16 ∧ t.busy = false ∧ t.done = false ∧
      t.errMode = false ∧ t.errDim = false ∧ t.pix = 0#32 ∧ t.n = 0#32 ∧ t.prevValid = false ∧
      t.params = s.params ∧ t.src = s.src ∧ (s.busy = false → t.dst = s.dst) ∧
      (∀ i : Index, ¬ i < s.n → memRead t.dst i = memRead s.dst i) ∧
      (FrameSound s → s.busy = true → ∀ i : Index, i < s.n →
        memRead t.dst i = memRead s.dstBefore i ∨
        ∃ r, modeTransform s.params s.mode (pipeWord i s) = some r ∧ memRead t.dst i = settledWord i r s)

/-- R23, R11, R13, R14, R113: the machine right after reset meets both invariants, and is idle with no error. -/
def Obligations.InvariantHoldsAtReset : Prop :=
  Inv State.reset ∧ FrameSound State.reset ∧ State.reset.mode = 0#3 ∧ State.reset.busy = false ∧
    State.reset.done = false ∧ State.reset.errMode = false ∧ State.reset.errDim = false ∧ State.reset.prevValid = false

/-- R11, R12, R13, R40, R109, R113: every step keeps the invariant: a legal mode, `PIX < N` while `BUSY = 1` and
`PIX = N` otherwise, never `BUSY` and `DONE`, a right cache, a right line buffer (R114, assumption 18), canonical
rasters; and with it, while `BUSY = 1`, that the words below `PIX` hold the frame's result and the words from `PIX` to `N - 1` what they held before (R12, R38 item 4). -/
def Obligations.EveryStepKeepsTheInvariant : Prop :=
  ∀ s t : State, Inv s → step s = .next t → Inv t ∧ (FrameSound s → FrameSound t)

/-- R107, R135, R142: in a state that meets the invariant a step always answers a next state, whatever the host has
pending: nothing faults and nothing is refused. -/
def Obligations.LegalStatesAlwaysStep : Prop :=
  ∀ s : State, Inv s → ∃ t, step s = .next t

/-- The model's records of a frame (assumptions 13 and 14): an accepted `TRANSFORM` of at least one pixel saves `DST` and
empties the other two, and the line buffer (assumption 18); with those empty the pipe takes the word of `SRC` and its
word is the one that stays in `DST`;
while `BUSY = 1` a step that is no reset changes them only by the host's own store into the frame, and the saved `DST`
then at that word alone. -/
def Obligations.FrameRecordsFollowTheHost : Prop :=
  (∀ (s t : State) (x : BitVec 31), s.busy = false → s.srcW = s.dstW → s.srcH = s.dstH →
    s.srcW ≠ 0#16 → s.srcH ≠ 0#16 → exec (.transform x) s = .next t →
    t.dstBefore = s.dst ∧ t.srcTaken = [] ∧ t.dstKept = [] ∧ t.line = []) ∧
  (∀ (s : State) (i : Index) (q : Pixel),
    (s.srcTaken = [] → pipeWord i s = memRead s.src i) ∧ (s.dstKept = [] → settledWord i q s = q)) ∧
  (∀ s t : State, s.busy = true → s.turns.head? ≠ some .reset → step s = .next t →
    (t.srcTaken = s.srcTaken ∨
      ∃ i v w rest, s.hostq = .storeSrc i v :: rest ∧ i < s.n ∧ t.srcTaken = (i.toNat, w) :: s.srcTaken ∧
        (w = v ∨ w = pipeWord i s)) ∧
    (t.dstBefore = s.dstBefore ∧ t.dstKept = s.dstKept ∨
      ∃ i v rest, s.hostq = .storeDst i v :: rest ∧ i < s.n ∧ t.dstBefore = memWrite s.dstBefore i v ∧
        (t.dstKept = s.dstKept ∨ t.dstKept = (i.toNat, v) :: s.dstKept)))

/-- R115: the result of a frame, under any order of host and pipe, with a host that keeps its duties of R160 and R161
and no reset: at the first state with `DONE = 1` every destination word below `N` is the transform of its source word;
the source, and the destination from `N` on, are as the operations the host has issued left them; mode, dimensions and
error bits are as before. -/
def Obligations.ResultOfAFrame : Prop :=
  ∀ (s : State) (x : BitVec 31), Inv s → s.busy = false → s.srcW = s.dstW → s.srcH = s.dstH →
    undisturbed (pixelCount s.srcW s.srcH) s →
    ∃ s1, exec (.transform x) s = .next s1 ∧
      ∀ (k : Nat) (t : State), steps k s1 = .next t → t.done = true →
        (∀ j, j < k → ∀ u, steps j s1 = .next u → u.done = false) →
        (∀ i : Index, i.toNat < s.srcW.toNat * s.srcH.toNat →
          modeTransform s.params s.mode (memRead s.src i) = some (memRead t.dst i) ∧
          memRead t.src i = memRead s.src i) ∧
        (∃ issued, s.hostq = issued ++ t.hostq ∧ t.src = srcAfter issued s.src ∧
          ∀ i : Index, s.srcW.toNat * s.srcH.toNat ≤ i.toNat → memRead t.dst i = memRead (dstAfter issued s.dst) i) ∧
        t.mode = s.mode ∧ t.srcW = s.srcW ∧ t.srcH = s.srcH ∧ t.dstW = s.dstW ∧
        t.dstH = s.dstH ∧ t.errMode = s.errMode ∧ t.errDim = s.errDim ∧
        t.busy = false ∧ t.pix.toNat = s.srcW.toNat * s.srcH.toNat

/-- R160, R161, R115 (the free choices are assumption 13): the result of a frame, under any order of host and pipe and
whatever the host stores, with no reset: at the first state with `DONE = 1` every destination word below `N` is the
transform of the source word of before or of a word the host has stored there, or it is a word the host has stored in
the destination; everything else is as in a frame left in peace. -/
def Obligations.ResultOfADisturbedFrame : Prop :=
  ∀ (s : State) (x : BitVec 31), Inv s → s.busy = false → s.srcW = s.dstW → s.srcH = s.dstH → Turn.reset ∉ s.turns →
    ∃ s1, exec (.transform x) s = .next s1 ∧
      ∀ (k : Nat) (t : State), steps k s1 = .next t → t.done = true →
        (∀ j, j < k → ∀ u, steps j s1 = .next u → u.done = false) →
        (∃ issued, s.hostq = issued ++ t.hostq ∧ t.src = srcAfter issued s.src ∧
          (∀ i : Index, s.srcW.toNat * s.srcH.toNat ≤ i.toNat → memRead t.dst i = memRead (dstAfter issued s.dst) i) ∧
          ∀ i : Index, i.toNat < s.srcW.toNat * s.srcH.toNat →
            ∃ p r, (p = memRead s.src i ∨ .storeSrc i p ∈ issued) ∧ modeTransform s.params s.mode p = some r ∧
              (memRead t.dst i = r ∨ .storeDst i (memRead t.dst i) ∈ issued)) ∧
        t.mode = s.mode ∧ t.srcW = s.srcW ∧ t.srcH = s.srcH ∧ t.dstW = s.dstW ∧
        t.dstH = s.dstH ∧ t.errMode = s.errMode ∧ t.errDim = s.errDim ∧
        t.busy = false ∧ t.pix.toNat = s.srcW.toNat * s.srcH.toNat

/-- R116, R32: shape preservation. A frame starts only with equal dimensions; after it, under the premises of
`ResultOfAFrame`, the destination has the width and height of the source, and the word of the pixel in column `x` of row
`y`, at index `y*W + x` of both rasters, is the transform of the source's; each of the `W*H` indices is one pixel's, and no other word is
written. -/
def Obligations.FinishedFrameKeepsTheShape : Prop :=
  (∀ (s t : State) (x : BitVec 31), s.busy = false → exec (.transform x) s = .next t → t.busy = true →
    s.srcW = s.dstW ∧ s.srcH = s.dstH) ∧
  ∀ (s s1 t : State) (x : BitVec 31) (k w h : Nat), Inv s → s.busy = false → s.srcW = s.dstW → s.srcH = s.dstH →
    undisturbed (pixelCount s.srcW s.srcH) s → w = s.srcW.toNat → h = s.srcH.toNat →
    exec (.transform x) s = .next s1 → steps k s1 = .next t → t.done = true →
    (∀ j, j < k → ∀ u, steps j s1 = .next u → u.done = false) →
    t.dstW.toNat = w ∧ t.dstH.toNat = h ∧ t.n.toNat = w * h ∧
    (∀ col row, col < w → row < h →
      ∃ i : Index, i.toNat = row * w + col ∧ i.toNat = rasterIndex w col row ∧ i.toNat < w * h ∧
        modeTransform s.params s.mode (memRead s.src i) = some (memRead t.dst i)) ∧
    (∀ i : Index, i.toNat < w * h → ∃ col row, col < w ∧ row < h ∧ i.toNat = row * w + col ∧
      ∀ col' row', col' < w → row' < h → i.toNat = row' * w + col' → col' = col ∧ row' = row) ∧
    ∃ issued, s.hostq = issued ++ t.hostq ∧
      ∀ i : Index, w * h ≤ i.toNat → memRead t.dst i = memRead (dstAfter issued s.dst) i

/-- R113: while `BUSY = 1` every step but a reset keeps `PIX`, or advances it by one as a pixel step; the frame ends with
the step that brings `PIX` to `N`, and with no other. With nothing pending and no turn left, where the steps are the
pipe's by the model's choice (assumption 21), the frame takes exactly one step for each pixel left. -/
def Obligations.FrameTakesOneStepPerPixel : Prop :=
  (∀ s t : State, Inv s → s.busy = true → s.turns.head? ≠ some .reset → step s = .next t →
    t.n = s.n ∧
    (t.pix = s.pix ∧ t.busy = true ∧ t.done = false ∨
      t.pix.toNat = s.pix.toNat + 1 ∧ t.busy = decide (t.pix ≠ s.n) ∧ t.done = decide (t.pix = s.n))) ∧
  ∀ s : State, Inv s → s.busy = true → s.hostq = [] → s.turns = [] →
    (∀ k, s.pix.toNat + k < s.n.toNat →
      ∃ u, steps k s = .next u ∧ u.busy = true ∧ u.done = false ∧ u.pix.toNat = s.pix.toNat + k) ∧
    ∃ t, steps (s.n.toNat - s.pix.toNat) s = .next t ∧ t.busy = false ∧ t.done = true ∧ t.pix = s.n

/-- R170, R113 (the order of moves is assumption 21): whatever the pending operations and turns, a frame that nobody
resets ends, within as many steps as there are turns, operations and pixels left. -/
def Obligations.EveryFrameEnds : Prop :=
  ∀ s : State, Inv s → s.busy = true → Turn.reset ∉ s.turns →
    ∃ k t, k ≤ s.turns.length + s.hostq.length + (s.n.toNat - s.pix.toNat) ∧ steps k s = .next t ∧
      t.done = true ∧ t.busy = false

/-- R117, R114: two frames with the same mode, the same tables and constants, the same dimensions and the same source
words give the same destination words, whatever else differed before, and whichever driver form each has. -/
def Obligations.EqualFramesGiveEqualResults : Prop :=
  ∀ (s s' s1 s1' t t' : State) (x x' : BitVec 31) (k k' : Nat),
    Inv s → Inv s' → s.busy = false → s'.busy = false →
    undisturbed (pixelCount s.srcW s.srcH) s → undisturbed (pixelCount s'.srcW s'.srcH) s' →
    s.srcW = s.dstW → s.srcH = s.dstH → s'.dstW = s.dstW → s'.dstH = s.dstH →
    s'.mode = s.mode → s'.params.fwd = s.params.fwd → s'.params.inv = s.params.inv → s'.params.tri = s.params.tri →
    s'.srcW = s.srcW → s'.srcH = s.srcH →
    (∀ i : Index, i.toNat < s.srcW.toNat * s.srcH.toNat → memRead s'.src i = memRead s.src i) →
    exec (.transform x) s = .next s1 → exec (.transform x') s' = .next s1' →
    steps k s1 = .next t → t.done = true → (∀ j, j < k → ∀ u, steps j s1 = .next u → u.done = false) →
    steps k' s1' = .next t' → t'.done = true → (∀ j, j < k' → ∀ u, steps j s1' = .next u → u.done = false) →
    ∀ i : Index, i.toNat < s.srcW.toNat * s.srcH.toNat → memRead t'.dst i = memRead t.dst i

/-- R40, R105: during a frame no step but a reset changes the mode, the dimensions or `N`. R19, R20, R159, R24: no step,
in a frame or not, reset included, writes the tables, the constants or the driver form. -/
def Obligations.ConfigurationAndTablesAreFixed : Prop :=
  ∀ s t : State, step s = .next t →
    t.params = s.params ∧
    (s.busy = true → s.turns.head? ≠ some .reset →
      t.mode = s.mode ∧ t.srcW = s.srcW ∧ t.srcH = s.srcH ∧ t.dstW = s.dstW ∧ t.dstH = s.dstH ∧ t.n = s.n)

/-- R30, R35: the source raster changes only by the host's own store, and then at that word alone; the destination stays,
but for the word at that index when the pipe is past it (R160, assumption 13). -/
def Obligations.SourceChangesOnlyByTheHost : Prop :=
  ∀ s t : State, step s = .next t → t.src ≠ s.src →
    ∃ i v rest, s.hostq = .storeSrc i v :: rest ∧ t.src = memWrite s.src i v ∧
      (∀ j : Index, j ≠ i → memRead t.dst j = memRead s.dst j) ∧
      (¬ (s.busy = true ∧ i < s.n ∧ i < s.pix) → t.dst = s.dst)

/-- R148: between frames, with nothing pending, a step keeps the whole state. -/
def Obligations.IdleMachineKeepsItsState : Prop :=
  ∀ s : State, s.busy = false → s.hostq = [] → s.turns.head? ≠ some .reset →
    step s = .next { s with turns := s.turns.tail }

/-- R30, R31, R38, R160, R161: the host's raster accesses. Inside a running frame a store happens too: the pipe takes
the old or the new source word, the host's or the pipe's destination word stays, and where the pipe is already past the
index `settle` brings `DST` in line (assumption 13); a word loaded from the destination is the one from before the frame
or the frame's result (assumption 14). -/
def Obligations.HostReachesItsRasters : Prop :=
  ∀ (s : State) (i : Index) (v : Pixel) (rest : List HostOp) (ts : List Turn), s.turns = .host :: ts →
    (s.hostq = .loadSrc i :: rest →
      step s = .next { s with turns := ts, hostq := rest, reply := some (memRead s.src i) }) ∧
    (¬ (s.busy = true ∧ i < s.n) →
      (s.hostq = .storeSrc i v :: rest →
        step s = .next { s with turns := ts, hostq := rest, src := memWrite s.src i v }) ∧
      (s.hostq = .loadDst i :: rest →
        step s = .next { s with turns := ts, hostq := rest, reply := some (memRead s.dst i) }) ∧
      (s.hostq = .storeDst i v :: rest →
        step s = .next { s with turns := ts, hostq := rest, dst := memWrite s.dst i v })) ∧
    (s.busy = true ∧ i < s.n →
      (s.hostq = .storeSrc i v :: rest →
        ∃ w, (w = v ∨ w = pipeWord i s) ∧
          step s = .next (settle i { s with
            turns := ts, hostq := rest, src := memWrite s.src i v, srcTaken := (i.toNat, w) :: s.srcTaken,
            freeIdx := s.freeIdx + 1 })) ∧
      (s.hostq = .loadDst i :: rest → s.mode.toNat ≤ 4 →
        ∃ u r, modeTransform s.params s.mode (pipeWord i s) = some r ∧
          (u = memRead s.dstBefore i ∨ u = settledWord i r s) ∧
          step s = .next { s with turns := ts, hostq := rest, reply := some u, freeIdx := s.freeIdx + 1 }) ∧
      (s.hostq = .storeDst i v :: rest →
        ∃ kept, (kept = s.dstKept ∨ kept = (i.toNat, v) :: s.dstKept) ∧
          step s = .next (settle i { s with
            turns := ts, hostq := rest, dst := memWrite s.dst i v, dstBefore := memWrite s.dstBefore i v,
            dstKept := kept, freeIdx := s.freeIdx + 1 })))

/-- R53, R59, R60: the lines of a host program stand for the operations of the table, each in the host's turn but the
reset line; the pseudo-operations expand to those lines; and a mode's number selects its pixel operation. How often
`wait_done` polls is the host's affair. -/
def Obligations.HostLinesStandForOperations : Prop :=
  (∀ m : DeficiencyMode, decode (.px (modeCode m)) = .ok (modeOperation m)) ∧
  (∀ m : Word, ∃ c, lineOps (.selectMode m) = [.ctrlWrite c] ∧ decode (.cw c) = .ok (.selectMode m)) ∧
  (∀ w h, ∃ c, lineOps (.setSrcDim w h) = [.ctrlWrite c] ∧ decode (.cw c) = .ok (.setSrcDim h w)) ∧
  (∀ w h, ∃ c, lineOps (.setDstDim w h) = [.ctrlWrite c] ∧ decode (.cw c) = .ok (.setDstDim h w)) ∧
  (lineOps .start = [.ctrlWrite (3#3 ++ 1#32)] ∧ decode (.cw (3#3 ++ 1#32)) = .ok (.transform 0)) ∧
  (∀ a, lineOps (.read a) = [.ctrlRead a] ∧ ∃ i, decode (.cr a) = .ok i ∧ encode i = .cr a) ∧
  (∀ a d, lineOps (.write a d) = [.ctrlWrite (a ++ d)] ∧ ∃ i, decode (.cw (a ++ d)) = .ok i ∧ encode i = .cw (a ++ d)) ∧
  (∀ i v, lineOps (.srcStore i v) = [.storeSrc i v]) ∧
  (∀ i v, lineOps (.dstStore i v) = [.storeDst i v]) ∧
  (lineOps .reset = [] ∧ lineTurns .reset = [.reset]) ∧
  (∀ l, l ≠ .reset → lineTurns l = [.host] ∧ ∃ op, lineOps l = [op]) ∧
  (∀ m, expandPseudo (.setMode m) = [.selectMode m]) ∧
  expandPseudo .apply = [.start] ∧
  (∀ polls, expandPseudo (.waitDone polls) = List.replicate polls (.read 4#3)) ∧
  (∀ w h polls, expandPseudo (.transform w h polls) =
    [.setSrcDim w h, .setDstDim w h, .start] ++ List.replicate polls (.read 4#3))

/-! ### Several instances (`spec/20_memory.md` R44, `spec/60_exceptions.md` R146; assumption 20) -/

/-- R44, R146: a step of a system is one step of one instance's own, the first of the coming moves, and it answers a
next state when that instance's step does. Every other instance keeps its whole state, its registers and rasters among
them; nobody's tables change, so instances that share them go on doing so; and after reset every instance is
`State.reset`. Which instance moves is the model's plain data (assumption 20). -/
def Obligations.InstancesShareNothingMutable : Prop :=
  (∀ (y : System) (k : Nat) (rest : List Nat), y.upcoming = k :: rest →
    (∀ s t : State, y.insts[k]? = some s → step s = .next t →
      ∃ z : System, y.step = .next z ∧ z.insts[k]? = some t ∧ ∀ j, j ≠ k → z.insts[j]? = y.insts[j]?) ∧
    (∀ z : System, y.step = .next z → z.insts.length = y.insts.length ∧ z.order = rest ∧
      (∀ j, j ≠ k → z.insts[j]? = y.insts[j]?) ∧
      (∀ s, y.insts[k]? = some s → ∃ t, step s = .next t ∧ z.insts[k]? = some t) ∧
      ∀ (j : Nat) (s t : State), y.insts[j]? = some s → z.insts[j]? = some t → t.params = s.params)) ∧
  (∀ n k : Nat, k < n → (System.reset n).insts[k]? = some State.reset)

/-- R44: instances run independently, and no order holds between them. Whatever the order of the moves, after it each
instance is where its own steps alone bring it, as many as it had moves, so two orders that differ only in how they
mix the instances give the same instances; and in any run of a system, the moves after the end of `order` included
(assumption 20), each instance has made a run of its own. -/
def Obligations.InstancesRunAsIfAlone : Prop :=
  (∀ (y : System) (moves : List Nat),
    (∀ k s, y.insts[k]? = some s → ∃ t, steps (moves.count k) s = .next t) →
    ∃ z, systemSteps moves.length { y with order := moves } = .next z ∧ z.order = [] ∧
      z.insts.length = y.insts.length ∧
      (∀ k s t, y.insts[k]? = some s → steps (moves.count k) s = .next t → z.insts[k]? = some t) ∧
      ∀ moves', moves'.Perm moves →
        ∃ z', systemSteps moves'.length { y with order := moves' } = .next z' ∧ z'.insts = z.insts) ∧
  (∀ (y z : System) (n k : Nat) (s : State), systemSteps n y = .next z → y.insts[k]? = some s →
    ∃ m t, m ≤ n ∧ steps m s = .next t ∧ z.insts[k]? = some t)

/-- R44, R164, R170 (the order of moves is assumptions 20 and 21): several rasters are filtered at once, each by an
instance of its own. In a system of legal instances, whatever the order of moves and whatever the others do, an
instance that has accepted a `TRANSFORM` under the premises of `ResultOfAFrame` comes to `DONE = 1`, and then every
destination word below `N` is the transform, under its own `MODE`, of its own source word. -/
def Obligations.SeveralRastersAreFilteredAtOnce : Prop :=
  ∀ (y : System) (k : Nat) (s s1 : State) (x : BitVec 31), (∀ u ∈ y.insts, Inv u) → y.insts[k]? = some s1 →
    Inv s → s.busy = false → s.srcW = s.dstW → s.srcH = s.dstH → undisturbed (pixelCount s.srcW s.srcH) s →
    exec (.transform x) s = .next s1 →
    ∃ n z t, systemSteps n y = .next z ∧ z.insts[k]? = some t ∧ t.done = true ∧ t.busy = false ∧
      ∀ i : Index, i.toNat < s.srcW.toNat * s.srcH.toNat →
        modeTransform s.params s.mode (memRead s.src i) = some (memRead t.dst i)
end

