-- ==== Sys2Proof/Laws/Datapath.lean ====
section
/-! SUPPORT. The small lemmas of the pixel word, the clamp and the dispatch. -/

namespace Sys2Proof.Machine

@[simp] theorem alphaOf_pack (r g b : Channel) : alphaOf (pack r g b) = 255#8 := by
  apply BitVec.eq_of_getLsbD_eq
  intro i hi
  simp only [alphaOf, pack, BitVec.getLsbD_extractLsb', BitVec.getLsbD_append]
  simp [hi, show ¬ (24 + i < 8 + 8 + 8) by omega]

@[simp] theorem redOf_pack (r g b : Channel) : redOf (pack r g b) = r := by
  apply BitVec.eq_of_getLsbD_eq
  intro i hi
  simp only [redOf, pack, BitVec.getLsbD_extractLsb', BitVec.getLsbD_append]
  simp [hi, show 16 + i < 8 + (8 + 8) by omega, show ¬ (16 + i < 8 + 8) by omega]

@[simp] theorem greenOf_pack (r g b : Channel) : greenOf (pack r g b) = g := by
  apply BitVec.eq_of_getLsbD_eq
  intro i hi
  simp only [greenOf, pack, BitVec.getLsbD_extractLsb', BitVec.getLsbD_append]
  simp [hi, show 8 + i < 8 + (8 + 8) by omega, show 8 + i < 8 + 8 by omega]

@[simp] theorem blueOf_pack (r g b : Channel) : blueOf (pack r g b) = b := by
  apply BitVec.eq_of_getLsbD_eq
  intro i hi
  simp only [blueOf, pack, BitVec.getLsbD_extractLsb', BitVec.getLsbD_append]
  simp [hi, show i < 8 + (8 + 8) by omega, show i < 8 + 8 by omega]

theorem clamp255_of_neg {z : Int} (h : z < 0) : clamp255 z = 0#8 := by simp [clamp255, h]

theorem clamp255_of_big {z : Int} (h : 255 < z) : clamp255 z = 255#8 := by
  simp [clamp255, h, show ¬ z < 0 by omega]

/-- Inside `0 .. 255` the clamp is the value itself. -/
theorem toNat_clamp255 {z : Int} (h0 : 0 ≤ z) (h1 : z ≤ 255) : ((clamp255 z).toNat : Int) = z := by
  simp only [clamp255, if_neg (show ¬ z < 0 by omega), if_neg (show ¬ (255 : Int) < z by omega)]
  simp only [BitVec.toNat_ofInt]
  omega

/-- A linear intensity in arithmetic is in the range of a 15-bit entry (R62). -/
theorem linInt_range (ps : Params) (c : Channel) : 0 ≤ linInt ps c ∧ linInt ps c ≤ 32767 := by
  have := (lin ps c).isLt
  unfold linInt
  omega

/-- A transform depends on the tables and the constants, not on the driver form. -/
theorem modeTransform_driver (ps : Params) (d : Driver) (m : BitVec 3) (p : Pixel) :
    modeTransform { ps with driver := d } m p = modeTransform ps m p := rfl

theorem modeTransform_zero (ps : Params) (p : Pixel) : modeTransform ps 0#3 p = some p := rfl
theorem modeTransform_one (ps : Params) (p : Pixel) : modeTransform ps 1#3 p = some (transformDeut ps p) := rfl
theorem modeTransform_two (ps : Params) (p : Pixel) : modeTransform ps 2#3 p = some (transformProt ps p) := rfl
theorem modeTransform_three (ps : Params) (p : Pixel) : modeTransform ps 3#3 p = some (transformTrit ps p) := rfl
theorem modeTransform_four (ps : Params) (p : Pixel) : modeTransform ps 4#3 p = some (transformGray ps p) := rfl

theorem decodePixel_ok {m : BitVec 3} {i : Instr} (h : decodePixel m = .ok i) :
    (m = 0#3 ∧ i = .pixNormal) ∨ (m = 1#3 ∧ i = .pixDeut) ∨ (m = 2#3 ∧ i = .pixProt) ∨
      (m = 3#3 ∧ i = .pixTrit) ∨ (m = 4#3 ∧ i = .pixGray) := by
  unfold decodePixel at h
  split at h
  · next hm => exact .inl ⟨hm, by injection h with h; exact h.symm⟩
  split at h
  · next hm => exact .inr (.inl ⟨hm, by injection h with h; exact h.symm⟩)
  split at h
  · next hm => exact .inr (.inr (.inl ⟨hm, by injection h with h; exact h.symm⟩))
  split at h
  · next hm => exact .inr (.inr (.inr (.inl ⟨hm, by injection h with h; exact h.symm⟩)))
  split at h
  · next hm => exact .inr (.inr (.inr (.inr ⟨hm, by injection h with h; exact h.symm⟩)))
  · exact absurd h (by simp)

end Sys2Proof.Machine
end

