-- ==== Sys2Proof/Laws/Encoding.lean ====
section
/-! SUPPORT. The fields of an encoded transaction: each part of a concatenation read back. -/

namespace Sys2Proof

/-- The low part of a concatenation. -/
theorem extract_low {n m : Nat} (x : BitVec n) (y : BitVec m) : (x ++ y).extractLsb' 0 m = y := by
  apply BitVec.eq_of_getLsbD_eq
  intro i hi
  simp [BitVec.getLsbD_append, hi]

/-- The high part of a concatenation. -/
theorem extract_high {n m : Nat} (x : BitVec n) (y : BitVec m) : (x ++ y).extractLsb' m n = x := by
  apply BitVec.eq_of_getLsbD_eq
  intro i hi
  simp [BitVec.getLsbD_append, hi]

/-- The fields of a dimension word. -/
@[simp] theorem dim_high (h w : BitVec 16) : BitVec.extractLsb' 16 16 (h ++ w : BitVec 32) = h := extract_high h w

@[simp] theorem dim_low (h w : BitVec 16) : BitVec.extractLsb' 0 16 (h ++ w : BitVec 32) = w := extract_low h w

/-- The fields of a command word. -/
@[simp] theorem command_ignored (x : BitVec 31) (b : BitVec 1) : BitVec.extractLsb' 1 31 (x ++ b : BitVec 32) = x :=
  extract_high x b

@[simp] theorem command_bit (x : BitVec 31) (b : BitVec 1) : BitVec.extractLsb' 0 1 (x ++ b : BitVec 32) = b :=
  extract_low x b

@[simp] theorem cwIndex_cwString (a : BitVec 3) (d : Word) : cwIndex (cwString a d) = a := extract_high a d

@[simp] theorem cwData_cwString (a : BitVec 3) (d : Word) : cwData (cwString a d) = d := extract_low a d

/-- A control write is its index and its word. -/
@[simp] theorem cwString_parts (w : BitVec 35) : cwString (cwIndex w) (cwData w) = w := by
  apply BitVec.eq_of_getLsbD_eq
  intro i hi
  simp only [cwString, cwIndex, cwData, BitVec.getLsbD_append, BitVec.getLsbD_extractLsb']
  split
  · next h => simp [h]
  · next h => simp [show i - 32 < 3 by omega, show 32 + (i - 32) = i by omega]

end Sys2Proof
end

