-- ==== Sys2Proof/Laws/Instances.lean ====
section
/-! SUPPORT. What a step of a system of instances can do, and the small lemmas of `System`. -/

namespace Sys2Proof.Machine

@[simp] theorem System.reset_insts (n : Nat) : (System.reset n).insts = List.replicate n State.reset := rfl
@[simp] theorem System.reset_order (n : Nat) : (System.reset n).order = [] := rfl

@[simp] theorem System.upcoming_nil (l : List State) :
    (System.mk l []).upcoming = List.range l.length := rfl

@[simp] theorem System.upcoming_cons (l : List State) (k : Nat) (ks : List Nat) :
    (System.mk l (k :: ks)).upcoming = k :: ks := rfl

/-- A place without an instance moves nothing. -/
theorem System.move_none {y : System} {k : Nat} (rest : List Nat) (h : y.insts[k]? = none) :
    y.move k rest = .next { y with order := rest } := by simp [System.move, h]

/-- The instance at a place takes its own step. -/
theorem System.move_some {y : System} {k : Nat} {s t : State} (rest : List Nat) (h : y.insts[k]? = some s)
    (ht : Sys2Proof.Machine.step s = .next t) : y.move k rest = .next { insts := y.insts.set k t, order := rest } := by
  simp [System.move, h, ht]

/-- All that a move can do: nobody is at the place, or the instance there takes its own step. -/
theorem System.move_next {y z : System} {k : Nat} {rest : List Nat} (h : y.move k rest = .next z) :
    (y.insts[k]? = none ∧ z = { y with order := rest }) ∨
      ∃ s t, y.insts[k]? = some s ∧ Sys2Proof.Machine.step s = .next t ∧
        z = { insts := y.insts.set k t, order := rest } := by
  unfold System.move at h
  split at h
  · next hk => injection h with h; exact .inl ⟨hk, h.symm⟩
  · next s hk =>
    split at h
    · next t ht => injection h with h; exact .inr ⟨s, t, hk, ht, h.symm⟩
    · exact absurd h (by simp)
    · exact absurd h (by simp)

/-- All that a step of a system can do: there is no instance, or the first of the coming moves happens. -/
theorem System.step_next {y z : System} (h : y.step = .next z) :
    (y.upcoming = [] ∧ z = y) ∨ ∃ k rest, y.upcoming = k :: rest ∧ y.move k rest = .next z := by
  unfold System.step at h
  split at h
  · next hu => injection h with h; exact .inl ⟨hu, h.symm⟩
  · next k rest hu => exact .inr ⟨k, rest, hu, h⟩

/-- The first of the coming moves is the step. -/
theorem System.step_of_upcoming {y : System} {k : Nat} {rest : List Nat} (h : y.upcoming = k :: rest) :
    y.step = y.move k rest := by simp [System.step, h]

/-- The coming moves are none only in a system without instances. -/
theorem System.upcoming_eq_nil {y : System} (h : y.upcoming = []) : y.insts = [] := by
  obtain ⟨l, o⟩ := y
  cases o <;> simp_all

/-- A step of a system takes each instance one step on, or leaves it. -/
theorem System.step_inst {y z : System} (h : y.step = .next z) {i : Nat} {s : State} (hi : y.insts[i]? = some s) :
    z.insts[i]? = some s ∨ ∃ t, Sys2Proof.Machine.step s = .next t ∧ z.insts[i]? = some t := by
  obtain ⟨-, rfl⟩ | ⟨k, rest, -, hm⟩ := System.step_next h
  · exact .inl hi
  · obtain ⟨-, rfl⟩ | ⟨s', t, hk, ht, rfl⟩ := System.move_next hm
    · exact .inl hi
    · by_cases hki : k = i
      · subst hki
        obtain rfl : s' = s := by simpa [hk] using hi
        exact .inr ⟨t, ht, by
          obtain ⟨hlt, -⟩ := List.getElem?_eq_some_iff.mp hk
          simp [hlt]⟩
      · exact .inl (by simpa [List.getElem?_set, hki] using hi)

/-- A step of a system keeps the number of instances. -/
theorem System.step_length {y z : System} (h : y.step = .next z) : z.insts.length = y.insts.length := by
  obtain ⟨-, rfl⟩ | ⟨k, rest, -, hm⟩ := System.step_next h
  · rfl
  · obtain ⟨-, rfl⟩ | ⟨s', t, -, -, rfl⟩ := System.move_next hm
    · rfl
    · simp

end Sys2Proof.Machine
end

