-- ==== Sys2Proof/Laws/Memory.lean ====
section
/-! SUPPORT. The laws of raster memory: what a read gives after a write, and that every operation keeps the
canonical form. -/

namespace Sys2Proof.Machine

@[simp] theorem Memory.read_nil (a : Nat) : Memory.read [] a = Memory.unlisted := rfl

theorem Memory.read_cons (c : Cell) (m : Memory) (a : Nat) :
    Memory.read (c :: m) a = if a = c.1 then c.2 else Memory.read m a := rfl

@[simp] theorem Memory.wf_nil : Memory.wf [] = true := rfl

theorem Memory.wf_cons (c : Cell) (m : Memory) :
    Memory.wf (c :: m) = true ↔
      c.1 < 4294967296 ∧ c.2 ≠ Memory.unlisted ∧ (∀ d ∈ m, c.1 < d.1) ∧ Memory.wf m = true := by
  simp [Memory.wf, and_assoc]

/-- Below every listed index a memory reads as unlisted. -/
theorem Memory.read_below {m : Memory} {a : Nat} (h : ∀ d ∈ m, a < d.1) :
    Memory.read m a = Memory.unlisted := by
  induction m with
  | nil => rfl
  | cons c m ih =>
    have hc := h c (by simp)
    rw [Memory.read_cons, if_neg (by omega)]
    exact ih fun d hd => h d (by simp [hd])

/-- A read after a write to the same index gives the value written. -/
theorem Memory.read_write_same {m : Memory} (hm : Memory.wf m = true) (a : Nat) (v : Pixel) :
    Memory.read (Memory.write m a v) a = v := by
  induction m with
  | nil => by_cases hv : v = Memory.unlisted <;> simp [Memory.write, Memory.read, hv]
  | cons c m ih =>
    obtain ⟨-, -, hlt, hwf⟩ := (Memory.wf_cons c m).mp hm
    unfold Memory.write
    split
    · split
      · next h hv =>
        rw [Memory.read_cons, if_neg (by omega), hv]
        exact Memory.read_below fun d hd => Nat.lt_trans h (hlt d hd)
      · simp [Memory.read_cons]
    · split
      · split
        · next h hv =>
          rw [hv]
          exact Memory.read_below fun d hd => h ▸ hlt d hd
        · simp [Memory.read_cons]
      · next h =>
        rw [Memory.read_cons, if_neg h]
        exact ih hwf

/-- A write leaves every other index alone. -/
theorem Memory.read_write_other (m : Memory) {a b : Nat} (v : Pixel) (hab : b ≠ a) :
    Memory.read (Memory.write m a v) b = Memory.read m b := by
  induction m with
  | nil => by_cases hv : v = Memory.unlisted <;> simp [Memory.write, Memory.read, hv, hab]
  | cons c m ih =>
    unfold Memory.write
    split
    · split <;> simp [Memory.read_cons, hab]
    · split
      · next h => split <;> simp [Memory.read_cons, ← h, hab]
      · simp [Memory.read_cons, ih]

theorem Memory.mem_write {m : Memory} {a : Nat} {v : Pixel} {d : Cell} (h : d ∈ Memory.write m a v) :
    d = (a, v) ∨ d ∈ m := by
  induction m with
  | nil => by_cases hv : v = Memory.unlisted <;> simp_all [Memory.write]
  | cons c m ih =>
    unfold Memory.write at h
    split at h
    · split at h
      · exact .inr h
      · exact List.mem_cons.mp h
    · split at h
      · split at h
        · exact .inr (List.mem_cons_of_mem c h)
        · exact (List.mem_cons.mp h).imp_right (List.mem_cons_of_mem c)
      · rcases List.mem_cons.mp h with h | h
        · simp [h]
        · rcases ih h with h | h <;> simp [h]

/-- A write inside the index space keeps the canonical form. -/
theorem Memory.wf_write {m : Memory} (hm : Memory.wf m = true) {a : Nat} (ha : a < 4294967296) (v : Pixel) :
    Memory.wf (Memory.write m a v) = true := by
  induction m with
  | nil => by_cases hv : v = Memory.unlisted <;> simp [Memory.write, Memory.wf, hv, ha]
  | cons c m ih =>
    have hcons := (Memory.wf_cons c m).mp hm
    obtain ⟨hc, hne, hlt, hwf⟩ := hcons
    unfold Memory.write
    split
    · next h =>
      split
      · exact hm
      · next hv =>
        refine (Memory.wf_cons _ _).mpr ⟨ha, hv, fun d hd => ?_, hm⟩
        rcases List.mem_cons.mp hd with rfl | hd
        · exact h
        · exact Nat.lt_trans h (hlt d hd)
    · split
      · next h =>
        split
        · exact hwf
        · next hv => exact (Memory.wf_cons _ _).mpr ⟨ha, hv, fun d hd => h ▸ hlt d hd, hwf⟩
      · next h1 h2 =>
        refine (Memory.wf_cons _ _).mpr ⟨hc, hne, fun d hd => ?_, ih hwf⟩
        rcases Memory.mem_write hd with rfl | hd
        · show c.1 < a
          omega
        · exact hlt d hd

/-- Canonical memories that read alike are the same data. -/
theorem Memory.ext_of_wf {m k : Memory} (hm : Memory.wf m = true) (hk : Memory.wf k = true)
    (h : ∀ a, Memory.read m a = Memory.read k a) : m = k := by
  induction m generalizing k with
  | nil =>
    cases k with
    | nil => rfl
    | cons d k =>
      have hd := (Memory.wf_cons d k).mp hk
      exact absurd (by simpa [Memory.read_cons] using (h d.1).symm) hd.2.1
  | cons c m ih =>
    obtain ⟨-, hcv, hclt, hmwf⟩ := (Memory.wf_cons c m).mp hm
    cases k with
    | nil => exact absurd (by simpa [Memory.read_cons] using h c.1) hcv
    | cons d k =>
      obtain ⟨-, hdv, hdlt, hkwf⟩ := (Memory.wf_cons d k).mp hk
      have below : ∀ {x : Nat} {l : Memory}, (∀ e ∈ l, x < e.1) → Memory.read l x = Memory.unlisted :=
        fun hl => Memory.read_below hl
      have hkey : c.1 = d.1 := by
        rcases Nat.lt_trichotomy c.1 d.1 with hlt | heq | hgt
        · have h1 := h c.1
          rw [Memory.read_cons, if_pos rfl, Memory.read_cons, if_neg (by omega),
            below fun e he => Nat.lt_trans hlt (hdlt e he)] at h1
          exact absurd h1 hcv
        · exact heq
        · have h1 := h d.1
          rw [Memory.read_cons, if_neg (by omega), Memory.read_cons, if_pos rfl,
            below fun e he => Nat.lt_trans hgt (hclt e he)] at h1
          exact absurd h1.symm hdv
      have hval : c.2 = d.2 := by
        have h1 := h c.1
        rwa [Memory.read_cons, if_pos rfl, Memory.read_cons, if_pos hkey] at h1
      have htail : m = k := by
        refine ih hmwf hkwf fun a => ?_
        by_cases ha : a = c.1
        · rw [ha, below hclt, hkey, below hdlt]
        · have h1 := h a
          rwa [Memory.read_cons, if_neg ha, Memory.read_cons, if_neg (hkey ▸ ha)] at h1
      rw [htail, show c = d from Prod.ext hkey hval]

/-! ### The word accesses of a raster space -/

theorem memRead_memWrite_same {m : Memory} (hm : Memory.wf m = true) (i : Index) (v : Pixel) :
    memRead (memWrite m i v) i = v := Memory.read_write_same hm i.toNat v

theorem memRead_memWrite_other (m : Memory) {i j : Index} (v : Pixel) (h : j ≠ i) :
    memRead (memWrite m i v) j = memRead m j :=
  Memory.read_write_other m v fun hn => h (BitVec.eq_of_toNat_eq hn)

theorem memRead_memWrite {m : Memory} (hm : Memory.wf m = true) (i j : Index) (v : Pixel) :
    memRead (memWrite m i v) j = if j = i then v else memRead m j := by
  split
  · next h => rw [h, memRead_memWrite_same hm]
  · next h => exact memRead_memWrite_other m v h

theorem wf_memWrite {m : Memory} (hm : Memory.wf m = true) (i : Index) (v : Pixel) :
    Memory.wf (memWrite m i v) = true := Memory.wf_write hm i.isLt v

end Sys2Proof.Machine
end

