-- ==== Sys2Proof/Laws/PerInstr.lean ====
section
/-! SUPPORT. The rows of `spec/opcode_table.json` as match and mask, and for every operation: its encoding
lies in its row. -/

namespace Sys2Proof.Laws

/-- A row of the table: a format with the mask of its fixed bits and their value. -/
inductive Row where
  | cw (mask value : BitVec 35)
  | cr (mask value : BitVec 3)
  | px (mask value : BitVec 3)
deriving DecidableEq, Repr

/-- The row of each operation, its `mask` and `match` columns. -/
def rowOf : Instr → Row
  | .selectMode _ => .cw 0x700000000#35 0x000000000#35
  | .setSrcDim _ _ => .cw 0x700000000#35 0x100000000#35
  | .setDstDim _ _ => .cw 0x700000000#35 0x200000000#35
  | .transform _ => .cw 0x700000001#35 0x300000001#35
  | .ctrlNop _ => .cw 0x700000001#35 0x300000000#35
  | .wrIgnored _ _ => .cw 0x400000000#35 0x400000000#35
  | .rdMode => .cr 7#3 0#3
  | .rdSrcDim => .cr 7#3 1#3
  | .rdDstDim => .cr 7#3 2#3
  | .rdZeroCtrl => .cr 7#3 3#3
  | .rdZeroRes5 => .cr 7#3 5#3
  | .rdZeroRes67 _ => .cr 6#3 6#3
  | .rdStatus => .cr 7#3 4#3
  | .pixNormal => .px 7#3 0#3
  | .pixDeut => .px 7#3 1#3
  | .pixProt => .px 7#3 2#3
  | .pixTrit => .px 7#3 3#3
  | .pixGray => .px 7#3 4#3

/-- A bit string lies in a row: same format, and its fixed bits are the row's. -/
def Row.holds : Row → Code → Prop
  | .cw mask value, .cw w => w &&& mask = value
  | .cr mask value, .cr a => a &&& mask = value
  | .px mask value, .px m => m &&& mask = value
  | .cw _ _, .cr _ => False
  | .cw _ _, .px _ => False
  | .cr _ _, .cw _ => False
  | .cr _ _, .px _ => False
  | .px _ _, .cw _ => False
  | .px _ _, .cr _ => False

theorem cwString_and (a b : BitVec 3) (d e : Word) :
    cwString a d &&& cwString b e = cwString (a &&& b) (d &&& e) :=
  BitVec.and_append

theorem append_and_bit (x : BitVec 31) (b : BitVec 1) :
    ((x ++ b : BitVec 32) &&& 1#32) = (0#31 ++ b : BitVec 32) := by
  have h : (1#32) = (0#31 ++ 1#1 : BitVec 32) := by decide
  rw [h, BitVec.and_append]
  congr 1
  · exact BitVec.and_zero
  · exact BitVec.and_allOnes

namespace TableRow

/-- The encoding of a well-formed operation lies in its row of the table. -/
def Statement (i : Instr) : Prop := i.wellFormed = true → (rowOf i).holds (encode i)

/-- The row of a write that is told by its register index alone. -/
theorem index_row (a : BitVec 3) (d : Word) : cwString a d &&& 0x700000000#35 = cwString a 0#32 := by
  rw [show (0x700000000#35) = cwString 7#3 0#32 by decide, cwString_and]
  congr 1
  · exact BitVec.and_allOnes
  · exact BitVec.and_zero

/-- The rows of the command register are told by the index and bit 0. -/
theorem command_row (x : BitVec 31) (b : BitVec 1) :
    cwString 3#3 (x ++ b) &&& 0x700000001#35 = cwString 3#3 (0#31 ++ b) := by
  rw [show (0x700000001#35) = cwString 7#3 1#32 by decide, cwString_and, append_and_bit]
  rfl

theorem selectMode (m : BitVec 32) : Statement (.selectMode m) := fun _ => index_row 0#3 m
theorem setSrcDim (h w : BitVec 16) : Statement (.setSrcDim h w) := fun _ => index_row 1#3 (h ++ w)
theorem setDstDim (h w : BitVec 16) : Statement (.setDstDim h w) := fun _ => index_row 2#3 (h ++ w)
theorem transform (x : BitVec 31) : Statement (.transform x) := fun _ => command_row x 1#1
theorem ctrlNop (x : BitVec 31) : Statement (.ctrlNop x) := fun _ => command_row x 0#1

theorem high_and : ∀ a : BitVec 3, 4 ≤ a.toNat → a &&& 4#3 = 4#3 := by decide
theorem reserved_and : ∀ a : BitVec 3, 6 ≤ a.toNat → a &&& 6#3 = 6#3 := by decide

theorem wrIgnored (a : BitVec 3) (x : BitVec 32) : Statement (.wrIgnored a x) := by
  intro h
  have ha : a &&& 4#3 = 4#3 := high_and a (by simpa [Instr.wellFormed] using h)
  show cwString a x &&& 0x400000000#35 = 0x400000000#35
  rw [show (0x400000000#35) = cwString 4#3 0#32 by decide, cwString_and, ha]
  congr 1
  exact BitVec.and_zero

theorem rdMode : Statement .rdMode := fun _ => rfl
theorem rdSrcDim : Statement .rdSrcDim := fun _ => rfl
theorem rdDstDim : Statement .rdDstDim := fun _ => rfl
theorem rdZeroCtrl : Statement .rdZeroCtrl := fun _ => rfl
theorem rdZeroRes5 : Statement .rdZeroRes5 := fun _ => rfl

theorem rdZeroRes67 (a : BitVec 3) : Statement (.rdZeroRes67 a) := by
  intro h
  exact reserved_and a (by simpa [Instr.wellFormed] using h)

theorem rdStatus : Statement .rdStatus := fun _ => rfl
theorem pixNormal : Statement .pixNormal := fun _ => rfl
theorem pixDeut : Statement .pixDeut := fun _ => rfl
theorem pixProt : Statement .pixProt := fun _ => rfl
theorem pixTrit : Statement .pixTrit := fun _ => rfl
theorem pixGray : Statement .pixGray := fun _ => rfl

end TableRow

/-- Two rows that some bit string could both lie in. -/
def Row.overlaps : Row → Row → Bool
  | .cw m v, .cw n u => v &&& n == u &&& m
  | .cr m v, .cr n u => v &&& n == u &&& m
  | .px m v, .px n u => v &&& n == u &&& m
  | .cw _ _, .cr _ _ => false
  | .cw _ _, .px _ _ => false
  | .cr _ _, .cw _ _ => false
  | .cr _ _, .px _ _ => false
  | .px _ _, .cw _ _ => false
  | .px _ _, .cr _ _ => false

/-- The eighteen rows of the table. -/
def rows : List Row :=
  [.selectMode 0, .setSrcDim 0 0, .setDstDim 0 0, .transform 0, .ctrlNop 0, .wrIgnored 4 0, .rdMode, .rdSrcDim,
    .rdDstDim, .rdZeroCtrl, .rdZeroRes5, .rdZeroRes67 6, .rdStatus, .pixNormal, .pixDeut, .pixProt, .pixTrit,
    .pixGray].map rowOf

/-- No two rows of the table overlap. -/
theorem rows_disjoint : rows.Pairwise (fun r q => r.overlaps q = false) := by decide

end Sys2Proof.Laws
end

