-- ==== Sys2Proof/Laws/State.lean ====
section
/-! SUPPORT. One lemma for each field and each named update of State. -/

namespace Sys2Proof.Machine

@[simp] theorem raise_invalidMode_mode (s : State) : (raise .invalidMode s).mode = s.mode := rfl
@[simp] theorem raise_invalidMode_srcW (s : State) : (raise .invalidMode s).srcW = s.srcW := rfl
@[simp] theorem raise_invalidMode_srcH (s : State) : (raise .invalidMode s).srcH = s.srcH := rfl
@[simp] theorem raise_invalidMode_dstW (s : State) : (raise .invalidMode s).dstW = s.dstW := rfl
@[simp] theorem raise_invalidMode_dstH (s : State) : (raise .invalidMode s).dstH = s.dstH := rfl
@[simp] theorem raise_invalidMode_busy (s : State) : (raise .invalidMode s).busy = s.busy := rfl
@[simp] theorem raise_invalidMode_done (s : State) : (raise .invalidMode s).done = s.done := rfl
@[simp] theorem raise_invalidMode_errMode (s : State) : (raise .invalidMode s).errMode = true := rfl
@[simp] theorem raise_invalidMode_errDim (s : State) : (raise .invalidMode s).errDim = s.errDim := rfl
@[simp] theorem raise_invalidMode_pix (s : State) : (raise .invalidMode s).pix = s.pix := rfl
@[simp] theorem raise_invalidMode_n (s : State) : (raise .invalidMode s).n = s.n := rfl
@[simp] theorem raise_invalidMode_prevValid (s : State) : (raise .invalidMode s).prevValid = s.prevValid := rfl
@[simp] theorem raise_invalidMode_prevIn (s : State) : (raise .invalidMode s).prevIn = s.prevIn := rfl
@[simp] theorem raise_invalidMode_prevOut (s : State) : (raise .invalidMode s).prevOut = s.prevOut := rfl
@[simp] theorem raise_invalidMode_params (s : State) : (raise .invalidMode s).params = s.params := rfl
@[simp] theorem raise_invalidMode_line (s : State) : (raise .invalidMode s).line = s.line := rfl
@[simp] theorem raise_invalidMode_src (s : State) : (raise .invalidMode s).src = s.src := rfl
@[simp] theorem raise_invalidMode_dst (s : State) : (raise .invalidMode s).dst = s.dst := rfl
@[simp] theorem raise_invalidMode_hostq (s : State) : (raise .invalidMode s).hostq = s.hostq := rfl
@[simp] theorem raise_invalidMode_turns (s : State) : (raise .invalidMode s).turns = s.turns := rfl
@[simp] theorem raise_invalidMode_reply (s : State) : (raise .invalidMode s).reply = s.reply := rfl
@[simp] theorem raise_invalidMode_dstBefore (s : State) : (raise .invalidMode s).dstBefore = s.dstBefore := rfl
@[simp] theorem raise_invalidMode_srcTaken (s : State) : (raise .invalidMode s).srcTaken = s.srcTaken := rfl
@[simp] theorem raise_invalidMode_dstKept (s : State) : (raise .invalidMode s).dstKept = s.dstKept := rfl
@[simp] theorem raise_invalidMode_freeIdx (s : State) : (raise .invalidMode s).freeIdx = s.freeIdx := rfl

@[simp] theorem raise_dimensionMismatch_mode (s : State) : (raise .dimensionMismatch s).mode = s.mode := rfl
@[simp] theorem raise_dimensionMismatch_srcW (s : State) : (raise .dimensionMismatch s).srcW = s.srcW := rfl
@[simp] theorem raise_dimensionMismatch_srcH (s : State) : (raise .dimensionMismatch s).srcH = s.srcH := rfl
@[simp] theorem raise_dimensionMismatch_dstW (s : State) : (raise .dimensionMismatch s).dstW = s.dstW := rfl
@[simp] theorem raise_dimensionMismatch_dstH (s : State) : (raise .dimensionMismatch s).dstH = s.dstH := rfl
@[simp] theorem raise_dimensionMismatch_busy (s : State) : (raise .dimensionMismatch s).busy = s.busy := rfl
@[simp] theorem raise_dimensionMismatch_done (s : State) : (raise .dimensionMismatch s).done = s.done := rfl
@[simp] theorem raise_dimensionMismatch_errMode (s : State) : (raise .dimensionMismatch s).errMode = s.errMode := rfl
@[simp] theorem raise_dimensionMismatch_errDim (s : State) : (raise .dimensionMismatch s).errDim = true := rfl
@[simp] theorem raise_dimensionMismatch_pix (s : State) : (raise .dimensionMismatch s).pix = s.pix := rfl
@[simp] theorem raise_dimensionMismatch_n (s : State) : (raise .dimensionMismatch s).n = s.n := rfl
@[simp] theorem raise_dimensionMismatch_prevValid (s : State) : (raise .dimensionMismatch s).prevValid = s.prevValid := rfl
@[simp] theorem raise_dimensionMismatch_prevIn (s : State) : (raise .dimensionMismatch s).prevIn = s.prevIn := rfl
@[simp] theorem raise_dimensionMismatch_prevOut (s : State) : (raise .dimensionMismatch s).prevOut = s.prevOut := rfl
@[simp] theorem raise_dimensionMismatch_params (s : State) : (raise .dimensionMismatch s).params = s.params := rfl
@[simp] theorem raise_dimensionMismatch_line (s : State) : (raise .dimensionMismatch s).line = s.line := rfl
@[simp] theorem raise_dimensionMismatch_src (s : State) : (raise .dimensionMismatch s).src = s.src := rfl
@[simp] theorem raise_dimensionMismatch_dst (s : State) : (raise .dimensionMismatch s).dst = s.dst := rfl
@[simp] theorem raise_dimensionMismatch_hostq (s : State) : (raise .dimensionMismatch s).hostq = s.hostq := rfl
@[simp] theorem raise_dimensionMismatch_turns (s : State) : (raise .dimensionMismatch s).turns = s.turns := rfl
@[simp] theorem raise_dimensionMismatch_reply (s : State) : (raise .dimensionMismatch s).reply = s.reply := rfl
@[simp] theorem raise_dimensionMismatch_dstBefore (s : State) : (raise .dimensionMismatch s).dstBefore = s.dstBefore := rfl
@[simp] theorem raise_dimensionMismatch_srcTaken (s : State) : (raise .dimensionMismatch s).srcTaken = s.srcTaken := rfl
@[simp] theorem raise_dimensionMismatch_dstKept (s : State) : (raise .dimensionMismatch s).dstKept = s.dstKept := rfl
@[simp] theorem raise_dimensionMismatch_freeIdx (s : State) : (raise .dimensionMismatch s).freeIdx = s.freeIdx := rfl

@[simp] theorem cacheEmptied_mode (s : State) : (cacheEmptied s).mode = s.mode := rfl
@[simp] theorem cacheEmptied_srcW (s : State) : (cacheEmptied s).srcW = s.srcW := rfl
@[simp] theorem cacheEmptied_srcH (s : State) : (cacheEmptied s).srcH = s.srcH := rfl
@[simp] theorem cacheEmptied_dstW (s : State) : (cacheEmptied s).dstW = s.dstW := rfl
@[simp] theorem cacheEmptied_dstH (s : State) : (cacheEmptied s).dstH = s.dstH := rfl
@[simp] theorem cacheEmptied_busy (s : State) : (cacheEmptied s).busy = s.busy := rfl
@[simp] theorem cacheEmptied_done (s : State) : (cacheEmptied s).done = s.done := rfl
@[simp] theorem cacheEmptied_errMode (s : State) : (cacheEmptied s).errMode = s.errMode := rfl
@[simp] theorem cacheEmptied_errDim (s : State) : (cacheEmptied s).errDim = s.errDim := rfl
@[simp] theorem cacheEmptied_pix (s : State) : (cacheEmptied s).pix = s.pix := rfl
@[simp] theorem cacheEmptied_n (s : State) : (cacheEmptied s).n = s.n := rfl
@[simp] theorem cacheEmptied_prevValid (s : State) : (cacheEmptied s).prevValid = false := rfl
@[simp] theorem cacheEmptied_prevIn (s : State) : (cacheEmptied s).prevIn = s.prevIn := rfl
@[simp] theorem cacheEmptied_prevOut (s : State) : (cacheEmptied s).prevOut = s.prevOut := rfl
@[simp] theorem cacheEmptied_params (s : State) : (cacheEmptied s).params = s.params := rfl
@[simp] theorem cacheEmptied_line (s : State) : (cacheEmptied s).line = s.line := rfl
@[simp] theorem cacheEmptied_src (s : State) : (cacheEmptied s).src = s.src := rfl
@[simp] theorem cacheEmptied_dst (s : State) : (cacheEmptied s).dst = s.dst := rfl
@[simp] theorem cacheEmptied_hostq (s : State) : (cacheEmptied s).hostq = s.hostq := rfl
@[simp] theorem cacheEmptied_turns (s : State) : (cacheEmptied s).turns = s.turns := rfl
@[simp] theorem cacheEmptied_reply (s : State) : (cacheEmptied s).reply = s.reply := rfl
@[simp] theorem cacheEmptied_dstBefore (s : State) : (cacheEmptied s).dstBefore = s.dstBefore := rfl
@[simp] theorem cacheEmptied_srcTaken (s : State) : (cacheEmptied s).srcTaken = s.srcTaken := rfl
@[simp] theorem cacheEmptied_dstKept (s : State) : (cacheEmptied s).dstKept = s.dstKept := rfl
@[simp] theorem cacheEmptied_freeIdx (s : State) : (cacheEmptied s).freeIdx = s.freeIdx := rfl

@[simp] theorem cacheFilled_mode (p q : Pixel) (s : State) : (cacheFilled p q s).mode = s.mode := rfl
@[simp] theorem cacheFilled_srcW (p q : Pixel) (s : State) : (cacheFilled p q s).srcW = s.srcW := rfl
@[simp] theorem cacheFilled_srcH (p q : Pixel) (s : State) : (cacheFilled p q s).srcH = s.srcH := rfl
@[simp] theorem cacheFilled_dstW (p q : Pixel) (s : State) : (cacheFilled p q s).dstW = s.dstW := rfl
@[simp] theorem cacheFilled_dstH (p q : Pixel) (s : State) : (cacheFilled p q s).dstH = s.dstH := rfl
@[simp] theorem cacheFilled_busy (p q : Pixel) (s : State) : (cacheFilled p q s).busy = s.busy := rfl
@[simp] theorem cacheFilled_done (p q : Pixel) (s : State) : (cacheFilled p q s).done = s.done := rfl
@[simp] theorem cacheFilled_errMode (p q : Pixel) (s : State) : (cacheFilled p q s).errMode = s.errMode := rfl
@[simp] theorem cacheFilled_errDim (p q : Pixel) (s : State) : (cacheFilled p q s).errDim = s.errDim := rfl
@[simp] theorem cacheFilled_pix (p q : Pixel) (s : State) : (cacheFilled p q s).pix = s.pix := rfl
@[simp] theorem cacheFilled_n (p q : Pixel) (s : State) : (cacheFilled p q s).n = s.n := rfl
@[simp] theorem cacheFilled_prevValid (p q : Pixel) (s : State) : (cacheFilled p q s).prevValid = true := rfl
@[simp] theorem cacheFilled_prevIn (p q : Pixel) (s : State) : (cacheFilled p q s).prevIn = p := rfl
@[simp] theorem cacheFilled_prevOut (p q : Pixel) (s : State) : (cacheFilled p q s).prevOut = q := rfl
@[simp] theorem cacheFilled_params (p q : Pixel) (s : State) : (cacheFilled p q s).params = s.params := rfl
@[simp] theorem cacheFilled_line (p q : Pixel) (s : State) : (cacheFilled p q s).line = s.line := rfl
@[simp] theorem cacheFilled_src (p q : Pixel) (s : State) : (cacheFilled p q s).src = s.src := rfl
@[simp] theorem cacheFilled_dst (p q : Pixel) (s : State) : (cacheFilled p q s).dst = s.dst := rfl
@[simp] theorem cacheFilled_hostq (p q : Pixel) (s : State) : (cacheFilled p q s).hostq = s.hostq := rfl
@[simp] theorem cacheFilled_turns (p q : Pixel) (s : State) : (cacheFilled p q s).turns = s.turns := rfl
@[simp] theorem cacheFilled_reply (p q : Pixel) (s : State) : (cacheFilled p q s).reply = s.reply := rfl
@[simp] theorem cacheFilled_dstBefore (p q : Pixel) (s : State) : (cacheFilled p q s).dstBefore = s.dstBefore := rfl
@[simp] theorem cacheFilled_srcTaken (p q : Pixel) (s : State) : (cacheFilled p q s).srcTaken = s.srcTaken := rfl
@[simp] theorem cacheFilled_dstKept (p q : Pixel) (s : State) : (cacheFilled p q s).dstKept = s.dstKept := rfl
@[simp] theorem cacheFilled_freeIdx (p q : Pixel) (s : State) : (cacheFilled p q s).freeIdx = s.freeIdx := rfl

@[simp] theorem frameRunning_mode (s : State) : (frameRunning s).mode = s.mode := rfl
@[simp] theorem frameRunning_srcW (s : State) : (frameRunning s).srcW = s.srcW := rfl
@[simp] theorem frameRunning_srcH (s : State) : (frameRunning s).srcH = s.srcH := rfl
@[simp] theorem frameRunning_dstW (s : State) : (frameRunning s).dstW = s.dstW := rfl
@[simp] theorem frameRunning_dstH (s : State) : (frameRunning s).dstH = s.dstH := rfl
@[simp] theorem frameRunning_busy (s : State) : (frameRunning s).busy = true := rfl
@[simp] theorem frameRunning_done (s : State) : (frameRunning s).done = false := rfl
@[simp] theorem frameRunning_errMode (s : State) : (frameRunning s).errMode = s.errMode := rfl
@[simp] theorem frameRunning_errDim (s : State) : (frameRunning s).errDim = s.errDim := rfl
@[simp] theorem frameRunning_pix (s : State) : (frameRunning s).pix = s.pix := rfl
@[simp] theorem frameRunning_n (s : State) : (frameRunning s).n = s.n := rfl
@[simp] theorem frameRunning_prevValid (s : State) : (frameRunning s).prevValid = s.prevValid := rfl
@[simp] theorem frameRunning_prevIn (s : State) : (frameRunning s).prevIn = s.prevIn := rfl
@[simp] theorem frameRunning_prevOut (s : State) : (frameRunning s).prevOut = s.prevOut := rfl
@[simp] theorem frameRunning_params (s : State) : (frameRunning s).params = s.params := rfl
@[simp] theorem frameRunning_line (s : State) : (frameRunning s).line = s.line := rfl
@[simp] theorem frameRunning_src (s : State) : (frameRunning s).src = s.src := rfl
@[simp] theorem frameRunning_dst (s : State) : (frameRunning s).dst = s.dst := rfl
@[simp] theorem frameRunning_hostq (s : State) : (frameRunning s).hostq = s.hostq := rfl
@[simp] theorem frameRunning_turns (s : State) : (frameRunning s).turns = s.turns := rfl
@[simp] theorem frameRunning_reply (s : State) : (frameRunning s).reply = s.reply := rfl
@[simp] theorem frameRunning_dstBefore (s : State) : (frameRunning s).dstBefore = s.dstBefore := rfl
@[simp] theorem frameRunning_srcTaken (s : State) : (frameRunning s).srcTaken = s.srcTaken := rfl
@[simp] theorem frameRunning_dstKept (s : State) : (frameRunning s).dstKept = s.dstKept := rfl
@[simp] theorem frameRunning_freeIdx (s : State) : (frameRunning s).freeIdx = s.freeIdx := rfl

@[simp] theorem frameEnded_mode (s : State) : (frameEnded s).mode = s.mode := rfl
@[simp] theorem frameEnded_srcW (s : State) : (frameEnded s).srcW = s.srcW := rfl
@[simp] theorem frameEnded_srcH (s : State) : (frameEnded s).srcH = s.srcH := rfl
@[simp] theorem frameEnded_dstW (s : State) : (frameEnded s).dstW = s.dstW := rfl
@[simp] theorem frameEnded_dstH (s : State) : (frameEnded s).dstH = s.dstH := rfl
@[simp] theorem frameEnded_busy (s : State) : (frameEnded s).busy = false := rfl
@[simp] theorem frameEnded_done (s : State) : (frameEnded s).done = true := rfl
@[simp] theorem frameEnded_errMode (s : State) : (frameEnded s).errMode = s.errMode := rfl
@[simp] theorem frameEnded_errDim (s : State) : (frameEnded s).errDim = s.errDim := rfl
@[simp] theorem frameEnded_pix (s : State) : (frameEnded s).pix = s.pix := rfl
@[simp] theorem frameEnded_n (s : State) : (frameEnded s).n = s.n := rfl
@[simp] theorem frameEnded_prevValid (s : State) : (frameEnded s).prevValid = s.prevValid := rfl
@[simp] theorem frameEnded_prevIn (s : State) : (frameEnded s).prevIn = s.prevIn := rfl
@[simp] theorem frameEnded_prevOut (s : State) : (frameEnded s).prevOut = s.prevOut := rfl
@[simp] theorem frameEnded_params (s : State) : (frameEnded s).params = s.params := rfl
@[simp] theorem frameEnded_line (s : State) : (frameEnded s).line = s.line := rfl
@[simp] theorem frameEnded_src (s : State) : (frameEnded s).src = s.src := rfl
@[simp] theorem frameEnded_dst (s : State) : (frameEnded s).dst = s.dst := rfl
@[simp] theorem frameEnded_hostq (s : State) : (frameEnded s).hostq = s.hostq := rfl
@[simp] theorem frameEnded_turns (s : State) : (frameEnded s).turns = s.turns := rfl
@[simp] theorem frameEnded_reply (s : State) : (frameEnded s).reply = s.reply := rfl
@[simp] theorem frameEnded_dstBefore (s : State) : (frameEnded s).dstBefore = s.dstBefore := rfl
@[simp] theorem frameEnded_srcTaken (s : State) : (frameEnded s).srcTaken = s.srcTaken := rfl
@[simp] theorem frameEnded_dstKept (s : State) : (frameEnded s).dstKept = s.dstKept := rfl
@[simp] theorem frameEnded_freeIdx (s : State) : (frameEnded s).freeIdx = s.freeIdx := rfl

@[simp] theorem answer_mode (v : Word) (s : State) : (answer v s).mode = s.mode := rfl
@[simp] theorem answer_srcW (v : Word) (s : State) : (answer v s).srcW = s.srcW := rfl
@[simp] theorem answer_srcH (v : Word) (s : State) : (answer v s).srcH = s.srcH := rfl
@[simp] theorem answer_dstW (v : Word) (s : State) : (answer v s).dstW = s.dstW := rfl
@[simp] theorem answer_dstH (v : Word) (s : State) : (answer v s).dstH = s.dstH := rfl
@[simp] theorem answer_busy (v : Word) (s : State) : (answer v s).busy = s.busy := rfl
@[simp] theorem answer_done (v : Word) (s : State) : (answer v s).done = s.done := rfl
@[simp] theorem answer_errMode (v : Word) (s : State) : (answer v s).errMode = s.errMode := rfl
@[simp] theorem answer_errDim (v : Word) (s : State) : (answer v s).errDim = s.errDim := rfl
@[simp] theorem answer_pix (v : Word) (s : State) : (answer v s).pix = s.pix := rfl
@[simp] theorem answer_n (v : Word) (s : State) : (answer v s).n = s.n := rfl
@[simp] theorem answer_prevValid (v : Word) (s : State) : (answer v s).prevValid = s.prevValid := rfl
@[simp] theorem answer_prevIn (v : Word) (s : State) : (answer v s).prevIn = s.prevIn := rfl
@[simp] theorem answer_prevOut (v : Word) (s : State) : (answer v s).prevOut = s.prevOut := rfl
@[simp] theorem answer_params (v : Word) (s : State) : (answer v s).params = s.params := rfl
@[simp] theorem answer_line (v : Word) (s : State) : (answer v s).line = s.line := rfl
@[simp] theorem answer_src (v : Word) (s : State) : (answer v s).src = s.src := rfl
@[simp] theorem answer_dst (v : Word) (s : State) : (answer v s).dst = s.dst := rfl
@[simp] theorem answer_hostq (v : Word) (s : State) : (answer v s).hostq = s.hostq := rfl
@[simp] theorem answer_turns (v : Word) (s : State) : (answer v s).turns = s.turns := rfl
@[simp] theorem answer_reply (v : Word) (s : State) : (answer v s).reply = some v := rfl
@[simp] theorem answer_dstBefore (v : Word) (s : State) : (answer v s).dstBefore = s.dstBefore := rfl
@[simp] theorem answer_srcTaken (v : Word) (s : State) : (answer v s).srcTaken = s.srcTaken := rfl
@[simp] theorem answer_dstKept (v : Word) (s : State) : (answer v s).dstKept = s.dstKept := rfl
@[simp] theorem answer_freeIdx (v : Word) (s : State) : (answer v s).freeIdx = s.freeIdx := rfl

@[simp] theorem resetStep_mode (s : State) : (resetStep s).mode = 0#3 := rfl
@[simp] theorem resetStep_srcW (s : State) : (resetStep s).srcW = 0#16 := rfl
@[simp] theorem resetStep_srcH (s : State) : (resetStep s).srcH = 0#16 := rfl
@[simp] theorem resetStep_dstW (s : State) : (resetStep s).dstW = 0#16 := rfl
@[simp] theorem resetStep_dstH (s : State) : (resetStep s).dstH = 0#16 := rfl
@[simp] theorem resetStep_busy (s : State) : (resetStep s).busy = false := rfl
@[simp] theorem resetStep_done (s : State) : (resetStep s).done = false := rfl
@[simp] theorem resetStep_errMode (s : State) : (resetStep s).errMode = false := rfl
@[simp] theorem resetStep_errDim (s : State) : (resetStep s).errDim = false := rfl
@[simp] theorem resetStep_pix (s : State) : (resetStep s).pix = 0#32 := rfl
@[simp] theorem resetStep_n (s : State) : (resetStep s).n = 0#32 := rfl
@[simp] theorem resetStep_prevValid (s : State) : (resetStep s).prevValid = false := rfl
@[simp] theorem resetStep_params (s : State) : (resetStep s).params = s.params := rfl
@[simp] theorem resetStep_line (s : State) : (resetStep s).line = [] := rfl
@[simp] theorem resetStep_src (s : State) : (resetStep s).src = s.src := rfl
@[simp] theorem resetStep_dst (s : State) : (resetStep s).dst = s.dst := rfl
@[simp] theorem resetStep_hostq (s : State) : (resetStep s).hostq = s.hostq := rfl
@[simp] theorem resetStep_turns (s : State) : (resetStep s).turns = s.turns := rfl
@[simp] theorem resetStep_reply (s : State) : (resetStep s).reply = s.reply := rfl
@[simp] theorem resetStep_dstBefore (s : State) : (resetStep s).dstBefore = [] := rfl
@[simp] theorem resetStep_srcTaken (s : State) : (resetStep s).srcTaken = [] := rfl
@[simp] theorem resetStep_dstKept (s : State) : (resetStep s).dstKept = [] := rfl
@[simp] theorem resetStep_freeIdx (s : State) : (resetStep s).freeIdx = s.freeIdx := rfl

@[simp] theorem setSrcDim_mode (h w : BitVec 16) (s : State) : (setSrcDim h w s).mode = s.mode := rfl
@[simp] theorem setSrcDim_srcW (h w : BitVec 16) (s : State) : (setSrcDim h w s).srcW = w := rfl
@[simp] theorem setSrcDim_srcH (h w : BitVec 16) (s : State) : (setSrcDim h w s).srcH = h := rfl
@[simp] theorem setSrcDim_dstW (h w : BitVec 16) (s : State) : (setSrcDim h w s).dstW = s.dstW := rfl
@[simp] theorem setSrcDim_dstH (h w : BitVec 16) (s : State) : (setSrcDim h w s).dstH = s.dstH := rfl
@[simp] theorem setSrcDim_busy (h w : BitVec 16) (s : State) : (setSrcDim h w s).busy = s.busy := rfl
@[simp] theorem setSrcDim_done (h w : BitVec 16) (s : State) : (setSrcDim h w s).done = s.done := rfl
@[simp] theorem setSrcDim_errMode (h w : BitVec 16) (s : State) : (setSrcDim h w s).errMode = s.errMode := rfl
@[simp] theorem setSrcDim_errDim (h w : BitVec 16) (s : State) : (setSrcDim h w s).errDim = s.errDim := rfl
@[simp] theorem setSrcDim_pix (h w : BitVec 16) (s : State) : (setSrcDim h w s).pix = s.pix := rfl
@[simp] theorem setSrcDim_n (h w : BitVec 16) (s : State) : (setSrcDim h w s).n = s.n := rfl
@[simp] theorem setSrcDim_prevValid (h w : BitVec 16) (s : State) : (setSrcDim h w s).prevValid = s.prevValid := rfl
@[simp] theorem setSrcDim_prevIn (h w : BitVec 16) (s : State) : (setSrcDim h w s).prevIn = s.prevIn := rfl
@[simp] theorem setSrcDim_prevOut (h w : BitVec 16) (s : State) : (setSrcDim h w s).prevOut = s.prevOut := rfl
@[simp] theorem setSrcDim_params (h w : BitVec 16) (s : State) : (setSrcDim h w s).params = s.params := rfl
@[simp] theorem setSrcDim_line (h w : BitVec 16) (s : State) : (setSrcDim h w s).line = s.line := rfl
@[simp] theorem setSrcDim_src (h w : BitVec 16) (s : State) : (setSrcDim h w s).src = s.src := rfl
@[simp] theorem setSrcDim_dst (h w : BitVec 16) (s : State) : (setSrcDim h w s).dst = s.dst := rfl
@[simp] theorem setSrcDim_hostq (h w : BitVec 16) (s : State) : (setSrcDim h w s).hostq = s.hostq := rfl
@[simp] theorem setSrcDim_turns (h w : BitVec 16) (s : State) : (setSrcDim h w s).turns = s.turns := rfl
@[simp] theorem setSrcDim_reply (h w : BitVec 16) (s : State) : (setSrcDim h w s).reply = s.reply := rfl
@[simp] theorem setSrcDim_dstBefore (h w : BitVec 16) (s : State) : (setSrcDim h w s).dstBefore = s.dstBefore := rfl
@[simp] theorem setSrcDim_srcTaken (h w : BitVec 16) (s : State) : (setSrcDim h w s).srcTaken = s.srcTaken := rfl
@[simp] theorem setSrcDim_dstKept (h w : BitVec 16) (s : State) : (setSrcDim h w s).dstKept = s.dstKept := rfl
@[simp] theorem setSrcDim_freeIdx (h w : BitVec 16) (s : State) : (setSrcDim h w s).freeIdx = s.freeIdx := rfl

@[simp] theorem setDstDim_mode (h w : BitVec 16) (s : State) : (setDstDim h w s).mode = s.mode := rfl
@[simp] theorem setDstDim_srcW (h w : BitVec 16) (s : State) : (setDstDim h w s).srcW = s.srcW := rfl
@[simp] theorem setDstDim_srcH (h w : BitVec 16) (s : State) : (setDstDim h w s).srcH = s.srcH := rfl
@[simp] theorem setDstDim_dstW (h w : BitVec 16) (s : State) : (setDstDim h w s).dstW = w := rfl
@[simp] theorem setDstDim_dstH (h w : BitVec 16) (s : State) : (setDstDim h w s).dstH = h := rfl
@[simp] theorem setDstDim_busy (h w : BitVec 16) (s : State) : (setDstDim h w s).busy = s.busy := rfl
@[simp] theorem setDstDim_done (h w : BitVec 16) (s : State) : (setDstDim h w s).done = s.done := rfl
@[simp] theorem setDstDim_errMode (h w : BitVec 16) (s : State) : (setDstDim h w s).errMode = s.errMode := rfl
@[simp] theorem setDstDim_errDim (h w : BitVec 16) (s : State) : (setDstDim h w s).errDim = s.errDim := rfl
@[simp] theorem setDstDim_pix (h w : BitVec 16) (s : State) : (setDstDim h w s).pix = s.pix := rfl
@[simp] theorem setDstDim_n (h w : BitVec 16) (s : State) : (setDstDim h w s).n = s.n := rfl
@[simp] theorem setDstDim_prevValid (h w : BitVec 16) (s : State) : (setDstDim h w s).prevValid = s.prevValid := rfl
@[simp] theorem setDstDim_prevIn (h w : BitVec 16) (s : State) : (setDstDim h w s).prevIn = s.prevIn := rfl
@[simp] theorem setDstDim_prevOut (h w : BitVec 16) (s : State) : (setDstDim h w s).prevOut = s.prevOut := rfl
@[simp] theorem setDstDim_params (h w : BitVec 16) (s : State) : (setDstDim h w s).params = s.params := rfl
@[simp] theorem setDstDim_line (h w : BitVec 16) (s : State) : (setDstDim h w s).line = s.line := rfl
@[simp] theorem setDstDim_src (h w : BitVec 16) (s : State) : (setDstDim h w s).src = s.src := rfl
@[simp] theorem setDstDim_dst (h w : BitVec 16) (s : State) : (setDstDim h w s).dst = s.dst := rfl
@[simp] theorem setDstDim_hostq (h w : BitVec 16) (s : State) : (setDstDim h w s).hostq = s.hostq := rfl
@[simp] theorem setDstDim_turns (h w : BitVec 16) (s : State) : (setDstDim h w s).turns = s.turns := rfl
@[simp] theorem setDstDim_reply (h w : BitVec 16) (s : State) : (setDstDim h w s).reply = s.reply := rfl
@[simp] theorem setDstDim_dstBefore (h w : BitVec 16) (s : State) : (setDstDim h w s).dstBefore = s.dstBefore := rfl
@[simp] theorem setDstDim_srcTaken (h w : BitVec 16) (s : State) : (setDstDim h w s).srcTaken = s.srcTaken := rfl
@[simp] theorem setDstDim_dstKept (h w : BitVec 16) (s : State) : (setDstDim h w s).dstKept = s.dstKept := rfl
@[simp] theorem setDstDim_freeIdx (h w : BitVec 16) (s : State) : (setDstDim h w s).freeIdx = s.freeIdx := rfl

@[simp] theorem storePixel_mode (q : Pixel) (s : State) :
    (storePixel q s).mode = s.mode := by
  unfold storePixel; split <;> simp
@[simp] theorem storePixel_srcW (q : Pixel) (s : State) :
    (storePixel q s).srcW = s.srcW := by
  unfold storePixel; split <;> simp
@[simp] theorem storePixel_srcH (q : Pixel) (s : State) :
    (storePixel q s).srcH = s.srcH := by
  unfold storePixel; split <;> simp
@[simp] theorem storePixel_dstW (q : Pixel) (s : State) :
    (storePixel q s).dstW = s.dstW := by
  unfold storePixel; split <;> simp
@[simp] theorem storePixel_dstH (q : Pixel) (s : State) :
    (storePixel q s).dstH = s.dstH := by
  unfold storePixel; split <;> simp
@[simp] theorem storePixel_busy (q : Pixel) (s : State) :
    (storePixel q s).busy = if s.pix + 1#32 = s.n then false else s.busy := by
  unfold storePixel; split <;> simp_all
@[simp] theorem storePixel_done (q : Pixel) (s : State) :
    (storePixel q s).done = if s.pix + 1#32 = s.n then true else s.done := by
  unfold storePixel; split <;> simp_all
@[simp] theorem storePixel_errMode (q : Pixel) (s : State) :
    (storePixel q s).errMode = s.errMode := by
  unfold storePixel; split <;> simp
@[simp] theorem storePixel_errDim (q : Pixel) (s : State) :
    (storePixel q s).errDim = s.errDim := by
  unfold storePixel; split <;> simp
@[simp] theorem storePixel_pix (q : Pixel) (s : State) :
    (storePixel q s).pix = s.pix + 1#32 := by
  unfold storePixel; split <;> simp
@[simp] theorem storePixel_n (q : Pixel) (s : State) :
    (storePixel q s).n = s.n := by
  unfold storePixel; split <;> simp
@[simp] theorem storePixel_prevValid (q : Pixel) (s : State) :
    (storePixel q s).prevValid = s.prevValid := by
  unfold storePixel; split <;> simp
@[simp] theorem storePixel_prevIn (q : Pixel) (s : State) :
    (storePixel q s).prevIn = s.prevIn := by
  unfold storePixel; split <;> simp
@[simp] theorem storePixel_prevOut (q : Pixel) (s : State) :
    (storePixel q s).prevOut = s.prevOut := by
  unfold storePixel; split <;> simp
@[simp] theorem storePixel_params (q : Pixel) (s : State) :
    (storePixel q s).params = s.params := by
  unfold storePixel; split <;> simp
@[simp] theorem storePixel_line (q : Pixel) (s : State) :
    (storePixel q s).line = (wordsAtHand s).tail := by
  unfold storePixel; split <;> simp
@[simp] theorem storePixel_src (q : Pixel) (s : State) :
    (storePixel q s).src = s.src := by
  unfold storePixel; split <;> simp
@[simp] theorem storePixel_dst (q : Pixel) (s : State) :
    (storePixel q s).dst = memWrite s.dst s.pix (settledWord s.pix q s) := by
  unfold storePixel; split <;> simp
@[simp] theorem storePixel_hostq (q : Pixel) (s : State) :
    (storePixel q s).hostq = s.hostq := by
  unfold storePixel; split <;> simp
@[simp] theorem storePixel_turns (q : Pixel) (s : State) :
    (storePixel q s).turns = s.turns := by
  unfold storePixel; split <;> simp
@[simp] theorem storePixel_reply (q : Pixel) (s : State) :
    (storePixel q s).reply = s.reply := by
  unfold storePixel; split <;> simp
@[simp] theorem storePixel_dstBefore (q : Pixel) (s : State) :
    (storePixel q s).dstBefore = s.dstBefore := by
  unfold storePixel; split <;> simp
@[simp] theorem storePixel_srcTaken (q : Pixel) (s : State) :
    (storePixel q s).srcTaken = s.srcTaken := by
  unfold storePixel; split <;> simp
@[simp] theorem storePixel_dstKept (q : Pixel) (s : State) :
    (storePixel q s).dstKept = s.dstKept := by
  unfold storePixel; split <;> simp
@[simp] theorem storePixel_freeIdx (q : Pixel) (s : State) :
    (storePixel q s).freeIdx = s.freeIdx := by
  unfold storePixel; split <;> simp

@[simp] theorem settle_mode (i : Index) (s : State) : (settle i s).mode = s.mode := by
  unfold settle; split <;> rfl
@[simp] theorem settle_srcW (i : Index) (s : State) : (settle i s).srcW = s.srcW := by
  unfold settle; split <;> rfl
@[simp] theorem settle_srcH (i : Index) (s : State) : (settle i s).srcH = s.srcH := by
  unfold settle; split <;> rfl
@[simp] theorem settle_dstW (i : Index) (s : State) : (settle i s).dstW = s.dstW := by
  unfold settle; split <;> rfl
@[simp] theorem settle_dstH (i : Index) (s : State) : (settle i s).dstH = s.dstH := by
  unfold settle; split <;> rfl
@[simp] theorem settle_busy (i : Index) (s : State) : (settle i s).busy = s.busy := by
  unfold settle; split <;> rfl
@[simp] theorem settle_done (i : Index) (s : State) : (settle i s).done = s.done := by
  unfold settle; split <;> rfl
@[simp] theorem settle_errMode (i : Index) (s : State) : (settle i s).errMode = s.errMode := by
  unfold settle; split <;> rfl
@[simp] theorem settle_errDim (i : Index) (s : State) : (settle i s).errDim = s.errDim := by
  unfold settle; split <;> rfl
@[simp] theorem settle_pix (i : Index) (s : State) : (settle i s).pix = s.pix := by
  unfold settle; split <;> rfl
@[simp] theorem settle_n (i : Index) (s : State) : (settle i s).n = s.n := by
  unfold settle; split <;> rfl
@[simp] theorem settle_prevValid (i : Index) (s : State) : (settle i s).prevValid = s.prevValid := by
  unfold settle; split <;> rfl
@[simp] theorem settle_prevIn (i : Index) (s : State) : (settle i s).prevIn = s.prevIn := by
  unfold settle; split <;> rfl
@[simp] theorem settle_prevOut (i : Index) (s : State) : (settle i s).prevOut = s.prevOut := by
  unfold settle; split <;> rfl
@[simp] theorem settle_params (i : Index) (s : State) : (settle i s).params = s.params := by
  unfold settle; split <;> rfl
@[simp] theorem settle_line (i : Index) (s : State) : (settle i s).line = s.line := by
  unfold settle; split <;> rfl
@[simp] theorem settle_src (i : Index) (s : State) : (settle i s).src = s.src := by
  unfold settle; split <;> rfl
@[simp] theorem settle_hostq (i : Index) (s : State) : (settle i s).hostq = s.hostq := by
  unfold settle; split <;> rfl
@[simp] theorem settle_turns (i : Index) (s : State) : (settle i s).turns = s.turns := by
  unfold settle; split <;> rfl
@[simp] theorem settle_reply (i : Index) (s : State) : (settle i s).reply = s.reply := by
  unfold settle; split <;> rfl
@[simp] theorem settle_dstBefore (i : Index) (s : State) : (settle i s).dstBefore = s.dstBefore := by
  unfold settle; split <;> rfl
@[simp] theorem settle_srcTaken (i : Index) (s : State) : (settle i s).srcTaken = s.srcTaken := by
  unfold settle; split <;> rfl
@[simp] theorem settle_dstKept (i : Index) (s : State) : (settle i s).dstKept = s.dstKept := by
  unfold settle; split <;> rfl
@[simp] theorem settle_freeIdx (i : Index) (s : State) : (settle i s).freeIdx = s.freeIdx := by
  unfold settle; split <;> rfl

@[simp] theorem disturbSrc_mode (i : Index) (v : Pixel) (s : State) : (disturbSrc i v s).mode = s.mode := by
  simp [disturbSrc]
@[simp] theorem disturbSrc_srcW (i : Index) (v : Pixel) (s : State) : (disturbSrc i v s).srcW = s.srcW := by
  simp [disturbSrc]
@[simp] theorem disturbSrc_srcH (i : Index) (v : Pixel) (s : State) : (disturbSrc i v s).srcH = s.srcH := by
  simp [disturbSrc]
@[simp] theorem disturbSrc_dstW (i : Index) (v : Pixel) (s : State) : (disturbSrc i v s).dstW = s.dstW := by
  simp [disturbSrc]
@[simp] theorem disturbSrc_dstH (i : Index) (v : Pixel) (s : State) : (disturbSrc i v s).dstH = s.dstH := by
  simp [disturbSrc]
@[simp] theorem disturbSrc_busy (i : Index) (v : Pixel) (s : State) : (disturbSrc i v s).busy = s.busy := by
  simp [disturbSrc]
@[simp] theorem disturbSrc_done (i : Index) (v : Pixel) (s : State) : (disturbSrc i v s).done = s.done := by
  simp [disturbSrc]
@[simp] theorem disturbSrc_errMode (i : Index) (v : Pixel) (s : State) : (disturbSrc i v s).errMode = s.errMode := by
  simp [disturbSrc]
@[simp] theorem disturbSrc_errDim (i : Index) (v : Pixel) (s : State) : (disturbSrc i v s).errDim = s.errDim := by
  simp [disturbSrc]
@[simp] theorem disturbSrc_pix (i : Index) (v : Pixel) (s : State) : (disturbSrc i v s).pix = s.pix := by
  simp [disturbSrc]
@[simp] theorem disturbSrc_n (i : Index) (v : Pixel) (s : State) : (disturbSrc i v s).n = s.n := by
  simp [disturbSrc]
@[simp] theorem disturbSrc_prevValid (i : Index) (v : Pixel) (s : State) : (disturbSrc i v s).prevValid = s.prevValid := by
  simp [disturbSrc]
@[simp] theorem disturbSrc_prevIn (i : Index) (v : Pixel) (s : State) : (disturbSrc i v s).prevIn = s.prevIn := by
  simp [disturbSrc]
@[simp] theorem disturbSrc_prevOut (i : Index) (v : Pixel) (s : State) : (disturbSrc i v s).prevOut = s.prevOut := by
  simp [disturbSrc]
@[simp] theorem disturbSrc_params (i : Index) (v : Pixel) (s : State) : (disturbSrc i v s).params = s.params := by
  simp [disturbSrc]
@[simp] theorem disturbSrc_line (i : Index) (v : Pixel) (s : State) : (disturbSrc i v s).line = s.line := by
  simp [disturbSrc]
@[simp] theorem disturbSrc_src (i : Index) (v : Pixel) (s : State) : (disturbSrc i v s).src = memWrite s.src i v := by
  simp [disturbSrc]
@[simp] theorem disturbSrc_hostq (i : Index) (v : Pixel) (s : State) : (disturbSrc i v s).hostq = s.hostq := by
  simp [disturbSrc]
@[simp] theorem disturbSrc_turns (i : Index) (v : Pixel) (s : State) : (disturbSrc i v s).turns = s.turns := by
  simp [disturbSrc]
@[simp] theorem disturbSrc_reply (i : Index) (v : Pixel) (s : State) : (disturbSrc i v s).reply = s.reply := by
  simp [disturbSrc]
@[simp] theorem disturbSrc_dstBefore (i : Index) (v : Pixel) (s : State) : (disturbSrc i v s).dstBefore = s.dstBefore := by
  simp [disturbSrc]
@[simp] theorem disturbSrc_dstKept (i : Index) (v : Pixel) (s : State) : (disturbSrc i v s).dstKept = s.dstKept := by
  simp [disturbSrc]
@[simp] theorem disturbSrc_freeIdx (i : Index) (v : Pixel) (s : State) : (disturbSrc i v s).freeIdx = s.freeIdx + 1 := by
  simp [disturbSrc]

@[simp] theorem disturbDst_mode (i : Index) (v : Pixel) (s : State) : (disturbDst i v s).mode = s.mode := by
  simp [disturbDst]
@[simp] theorem disturbDst_srcW (i : Index) (v : Pixel) (s : State) : (disturbDst i v s).srcW = s.srcW := by
  simp [disturbDst]
@[simp] theorem disturbDst_srcH (i : Index) (v : Pixel) (s : State) : (disturbDst i v s).srcH = s.srcH := by
  simp [disturbDst]
@[simp] theorem disturbDst_dstW (i : Index) (v : Pixel) (s : State) : (disturbDst i v s).dstW = s.dstW := by
  simp [disturbDst]
@[simp] theorem disturbDst_dstH (i : Index) (v : Pixel) (s : State) : (disturbDst i v s).dstH = s.dstH := by
  simp [disturbDst]
@[simp] theorem disturbDst_busy (i : Index) (v : Pixel) (s : State) : (disturbDst i v s).busy = s.busy := by
  simp [disturbDst]
@[simp] theorem disturbDst_done (i : Index) (v : Pixel) (s : State) : (disturbDst i v s).done = s.done := by
  simp [disturbDst]
@[simp] theorem disturbDst_errMode (i : Index) (v : Pixel) (s : State) : (disturbDst i v s).errMode = s.errMode := by
  simp [disturbDst]
@[simp] theorem disturbDst_errDim (i : Index) (v : Pixel) (s : State) : (disturbDst i v s).errDim = s.errDim := by
  simp [disturbDst]
@[simp] theorem disturbDst_pix (i : Index) (v : Pixel) (s : State) : (disturbDst i v s).pix = s.pix := by
  simp [disturbDst]
@[simp] theorem disturbDst_n (i : Index) (v : Pixel) (s : State) : (disturbDst i v s).n = s.n := by
  simp [disturbDst]
@[simp] theorem disturbDst_prevValid (i : Index) (v : Pixel) (s : State) : (disturbDst i v s).prevValid = s.prevValid := by
  simp [disturbDst]
@[simp] theorem disturbDst_prevIn (i : Index) (v : Pixel) (s : State) : (disturbDst i v s).prevIn = s.prevIn := by
  simp [disturbDst]
@[simp] theorem disturbDst_prevOut (i : Index) (v : Pixel) (s : State) : (disturbDst i v s).prevOut = s.prevOut := by
  simp [disturbDst]
@[simp] theorem disturbDst_params (i : Index) (v : Pixel) (s : State) : (disturbDst i v s).params = s.params := by
  simp [disturbDst]
@[simp] theorem disturbDst_line (i : Index) (v : Pixel) (s : State) : (disturbDst i v s).line = s.line := by
  simp [disturbDst]
@[simp] theorem disturbDst_src (i : Index) (v : Pixel) (s : State) : (disturbDst i v s).src = s.src := by
  simp [disturbDst]
@[simp] theorem disturbDst_hostq (i : Index) (v : Pixel) (s : State) : (disturbDst i v s).hostq = s.hostq := by
  simp [disturbDst]
@[simp] theorem disturbDst_turns (i : Index) (v : Pixel) (s : State) : (disturbDst i v s).turns = s.turns := by
  simp [disturbDst]
@[simp] theorem disturbDst_reply (i : Index) (v : Pixel) (s : State) : (disturbDst i v s).reply = s.reply := by
  simp [disturbDst]
@[simp] theorem disturbDst_dstBefore (i : Index) (v : Pixel) (s : State) : (disturbDst i v s).dstBefore = memWrite s.dstBefore i v := by
  simp [disturbDst]
@[simp] theorem disturbDst_srcTaken (i : Index) (v : Pixel) (s : State) : (disturbDst i v s).srcTaken = s.srcTaken := by
  simp [disturbDst]
@[simp] theorem disturbDst_freeIdx (i : Index) (v : Pixel) (s : State) : (disturbDst i v s).freeIdx = s.freeIdx + 1 := by
  simp [disturbDst]

end Sys2Proof.Machine
end

