-- ==== Sys2Proof/Laws/Step.lean ====
section
/-! SUPPORT. What a shared operation, an operation and a step can do: the inversion lemmas that claims cite
instead of unfolding the machine. -/

namespace Sys2Proof.Machine

theorem acceptWrite_idle {s : State} (f : State → State) (h : s.busy = false) :
    acceptWrite f s = .next (f s) := by simp [acceptWrite, h]

theorem acceptWrite_busy {s : State} (f : State → State) (h : s.busy = true) :
    acceptWrite f s = .next s := by simp [acceptWrite, h]

theorem inFrame_idle {s : State} (f : State → State) (h : s.busy = false) :
    inFrame f s = .next s := by simp [inFrame, h]

theorem inFrame_inside {s : State} (f : State → State) (h : s.busy = true) (hp : s.pix < s.n) :
    inFrame f s = .next (f s) := by simp [inFrame, h, hp]

theorem inFrame_outside {s : State} (f : State → State) (h : s.busy = true) (hp : ¬ s.pix < s.n) :
    inFrame f s = .fault (.pixelOutsideRaster s.pix) := by simp [inFrame, h, hp]

/-- The operations of modes 1 to 4 are pixel steps with their transform. -/
theorem exec_filter {op : Instr × (Params → Pixel → Pixel)} (h : op ∈ filterOperations) (s : State) :
    exec op.1 s = inFrame (filterPixel (op.2 s.params)) s := by
  simp only [filterOperations, List.mem_cons, List.not_mem_nil, or_false] at h
  rcases h with rfl | rfl | rfl | rfl <;> rfl

/-- `N` is the exact product: two 16-bit factors fit 32 bits (R12). -/
theorem toNat_pixelCount (w h : BitVec 16) : (pixelCount w h).toNat = w.toNat * h.toNat := by
  have h1 := w.isLt
  have h2 := h.isLt
  have : w.toNat * h.toNat < 4294967296 := by nlinarith
  simp only [pixelCount, BitVec.toNat_mul, BitVec.toNat_setWidth]
  rw [Nat.mod_eq_of_lt (show w.toNat < 2 ^ 32 by omega), Nat.mod_eq_of_lt (show h.toNat < 2 ^ 32 by omega),
    Nat.mod_eq_of_lt (by omega)]

theorem acceptWrite_next {f : State → State} {s t : State} (h : acceptWrite f s = .next t) :
    (s.busy = true ∧ t = s) ∨ (s.busy = false ∧ t = f s) := by
  unfold acceptWrite at h
  injection h with h
  cases hb : s.busy <;> simp_all

theorem inFrame_next {f : State → State} {s t : State} (h : inFrame f s = .next t) :
    (s.busy = false ∧ t = s) ∨ (s.busy = true ∧ s.pix < s.n ∧ t = f s) := by
  unfold inFrame at h
  split at h
  · next hb =>
    split at h
    · next hp => injection h with h; exact .inr ⟨hb, hp, h.symm⟩
    · exact absurd h (by simp)
  · next hb => injection h with h; exact .inl ⟨by simpa using hb, h.symm⟩

theorem selectMode_cases (d : Word) (s : State) :
    (4 < d.toNat ∧ selectMode d s = { s with errMode := true }) ∨
      (d.toNat ≤ 4 ∧ selectMode d s = { s with mode := d.extractLsb' 0 3 }) := by
  unfold selectMode
  split
  · next h => exact .inl ⟨h, rfl⟩
  · next h => exact .inr ⟨by omega, rfl⟩

theorem startFrame_cases (s : State) :
    (pixelCount s.srcW s.srcH = 0#32 ∧
        startFrame s = { s with n := 0#32, pix := 0#32, prevValid := false, done := true }) ∨
      (pixelCount s.srcW s.srcH ≠ 0#32 ∧
        startFrame s = { s with
          n := pixelCount s.srcW s.srcH, pix := 0#32, prevValid := false, done := false, line := [], dstBefore := s.dst,
          srcTaken := [], dstKept := [], busy := true }) := by
  unfold startFrame
  by_cases h : pixelCount s.srcW s.srcH = 0#32
  · exact .inl ⟨h, by simp [h, cacheEmptied]⟩
  · exact .inr ⟨h, by simp [h, cacheEmptied, frameRunning]⟩

theorem transformCommand_cases (s : State) :
    ((s.srcW ≠ s.dstW ∨ s.srcH ≠ s.dstH) ∧ transformCommand s = { s with errDim := true }) ∨
      (s.srcW = s.dstW ∧ s.srcH = s.dstH ∧ transformCommand s = startFrame s) := by
  unfold transformCommand
  by_cases h : s.srcW ≠ s.dstW ∨ s.srcH ≠ s.dstH
  · exact .inl ⟨h, by rw [if_pos h]; rfl⟩
  · rw [if_neg h]
    simp only [not_or, not_not] at h
    exact .inr ⟨h.1, h.2, rfl⟩

theorem storePixel_cases (q : Pixel) (s : State) :
    (s.pix + 1#32 = s.n ∧ storePixel q s =
        { s with
          dst := memWrite s.dst s.pix (settledWord s.pix q s), pix := s.pix + 1#32, line := (wordsAtHand s).tail,
          busy := false, done := true }) ∨
      (s.pix + 1#32 ≠ s.n ∧ storePixel q s =
        { s with
          dst := memWrite s.dst s.pix (settledWord s.pix q s), pix := s.pix + 1#32, line := (wordsAtHand s).tail }) := by
  unfold storePixel
  by_cases h : s.pix + 1#32 = s.n
  · exact .inl ⟨h, by simp [h, frameEnded]⟩
  · exact .inr ⟨h, by simp [h]⟩

/-! ### The host's stores into a running frame (assumption 13) -/

@[simp] theorem overlay_nil (a : Nat) (w : Pixel) : overlay [] a w = w := rfl

@[simp] theorem overlay_cons_same (a : Nat) (v : Pixel) (l : List Cell) (w : Pixel) : overlay ((a, v) :: l) a w = v := by
  simp [overlay]

theorem overlay_cons_other {a b : Nat} (v : Pixel) (l : List Cell) (w : Pixel) (h : a ≠ b) :
    overlay ((b, v) :: l) a w = overlay l a w := by simp [overlay, h]

/-- The word a record gives does not depend on the default, or it is the default. -/
theorem overlay_cases (l : List Cell) (a : Nat) : (∀ w, overlay l a w = w) ∨ ∃ v, ∀ w, overlay l a w = v := by
  induction l with
  | nil => exact .inl fun _ => rfl
  | cons c l ih =>
    unfold overlay
    split
    · exact .inr ⟨c.2, fun _ => rfl⟩
    · exact ih

theorem pipeWord_of_none_taken {s : State} (h : s.srcTaken = []) (i : Index) : pipeWord i s = memRead s.src i := by
  simp [pipeWord, h]

theorem settledWord_of_none_kept {s : State} (h : s.dstKept = []) (i : Index) (q : Pixel) : settledWord i q s = q := by
  simp [settledWord, h]

theorem settle_cases (i : Index) (s : State) :
    (i < s.pix ∧ settle i s = { s with dst := memWrite s.dst i (frameResult i s) }) ∨
      (¬ i < s.pix ∧ settle i s = s) := by
  unfold settle
  split
  · next h => exact .inl ⟨h, rfl⟩
  · next h => exact .inr ⟨h, rfl⟩

@[simp] theorem pipeWord_settle (i j : Index) (s : State) : pipeWord j (settle i s) = pipeWord j s := by
  simp [pipeWord]

@[simp] theorem settledWord_settle (i j : Index) (q : Pixel) (s : State) :
    settledWord j q (settle i s) = settledWord j q s := by simp [settledWord]

theorem frameResult_of_transform {i : Index} {s : State} {r : Pixel}
    (h : modeTransform s.params s.mode (pipeWord i s) = some r) : frameResult i s = settledWord i r s := by
  simp [frameResult, h]

theorem disturbSrc_cases (i : Index) (v : Pixel) (s : State) :
    ∃ w, (w = v ∨ w = pipeWord i s) ∧ disturbSrc i v s = settle i { s with
      src := memWrite s.src i v, srcTaken := (i.toNat, w) :: s.srcTaken, freeIdx := s.freeIdx + 1 } := by
  refine ⟨_, ?_, rfl⟩
  cases Config.freeChoice s.freeIdx <;> simp

theorem disturbDst_cases (i : Index) (v : Pixel) (s : State) :
    ∃ kept, (kept = s.dstKept ∨ kept = (i.toNat, v) :: s.dstKept) ∧ disturbDst i v s = settle i { s with
      dst := memWrite s.dst i v, dstBefore := memWrite s.dstBefore i v, dstKept := kept,
      freeIdx := s.freeIdx + 1 } := by
  refine ⟨_, ?_, rfl⟩
  cases Config.freeChoice s.freeIdx || s.dstKept.any (fun c => decide (c.1 = i.toNat)) <;> simp

theorem inRunningFrame_iff (i : Index) (s : State) : inRunningFrame i s = true ↔ s.busy = true ∧ i < s.n := by
  simp [inRunningFrame]

theorem hostStoreSrc_next {i : Index} {v : Pixel} {s t : State} (h : hostStoreSrc i v s = .next t) :
    (s.busy = true ∧ i < s.n ∧ t = disturbSrc i v s) ∨
      (¬ (s.busy = true ∧ i < s.n) ∧ t = { s with src := memWrite s.src i v }) := by
  unfold hostStoreSrc at h
  injection h with h
  by_cases hf : s.busy = true ∧ i < s.n
  · exact .inl ⟨hf.1, hf.2, by rw [← h, if_pos ((inRunningFrame_iff i s).2 hf)]⟩
  · exact .inr ⟨hf, by rw [← h, if_neg (fun hh => hf ((inRunningFrame_iff i s).1 hh))]⟩

theorem hostStoreDst_next {i : Index} {v : Pixel} {s t : State} (h : hostStoreDst i v s = .next t) :
    (s.busy = true ∧ i < s.n ∧ t = disturbDst i v s) ∨
      (¬ (s.busy = true ∧ i < s.n) ∧ t = { s with dst := memWrite s.dst i v }) := by
  unfold hostStoreDst at h
  injection h with h
  by_cases hf : s.busy = true ∧ i < s.n
  · exact .inl ⟨hf.1, hf.2, by rw [← h, if_pos ((inRunningFrame_iff i s).2 hf)]⟩
  · exact .inr ⟨hf, by rw [← h, if_neg (fun hh => hf ((inRunningFrame_iff i s).1 hh))]⟩

theorem hostLoadDst_next {i : Index} {s t : State} (h : hostLoadDst i s = .next t) :
    ∃ u k, t = answer u { s with freeIdx := k } := by
  unfold hostLoadDst at h
  split at h <;> injection h with h
  · exact ⟨_, _, h.symm⟩
  · exact ⟨_, s.freeIdx, h.symm⟩

/-! ### The driver (assumption 18) -/

theorem wordsAtHand_streaming {s : State} (h : s.params.driver = .streaming) :
    wordsAtHand s = [memRead s.src s.pix] := by simp [wordsAtHand, h]

theorem wordsAtHand_row_start {s : State} (h : s.params.driver = .rowBuffered) (hl : s.line = []) :
    wordsAtHand s = readRow s.src s.pix s.srcW.toNat := by simp [wordsAtHand, h, hl]

theorem wordsAtHand_in_row {s : State} (h : s.params.driver = .rowBuffered) (hl : s.line ≠ []) :
    wordsAtHand s = s.line := by simp [wordsAtHand, h, hl]

@[simp] theorem wordsAtHand_cacheFilled (p q : Pixel) (s : State) : wordsAtHand (cacheFilled p q s) = wordsAtHand s := rfl

@[simp] theorem readRow_length (m : Memory) (i : Index) (k : Nat) : (readRow m i k).length = k := by
  induction k generalizing i with
  | zero => rfl
  | succ k ih => simp [readRow, ih]

theorem readRow_getElem? (m : Memory) (i : Index) {k j : Nat} (h : j < k) :
    (readRow m i k)[j]? = some (memRead m (i + BitVec.ofNat 32 j)) := by
  induction k generalizing i j with
  | zero => omega
  | succ k ih =>
    cases j with
    | zero => simp [readRow]
    | succ j =>
      rw [readRow, List.getElem?_cons_succ, ih _ (by omega), BitVec.add_assoc]
      congr 3
      rw [Nat.add_comm j 1, BitVec.ofNat_add]

/-- The words of a row just read are the ones the pipe takes there. -/
theorem lineHolds_readRow (s : State) (i : Index) (k : Nat) : lineHolds s i (readRow s.src i k) := by
  induction k generalizing i with
  | zero => trivial
  | succ k ih => exact ⟨rfl, ih _⟩

/-- With either driver form a pixel step of a running frame takes the word of `PIX`. -/
theorem takenWord_eq_pipeWord {s : State} (hi : Inv s) (hb : s.busy = true) : takenWord s = pipeWord s.pix s := by
  have hl := hi.lineRight hb
  cases hd : s.params.driver with
  | streaming => simp [takenWord, wordsAtHand, hd, pipeWord]
  | rowBuffered =>
    cases hw : s.line with
    | nil =>
      have hlt := (hl.rows hd).1
      obtain ⟨w, hW⟩ : ∃ w, s.srcW.toNat = w + 1 := ⟨s.srcW.toNat - 1, by omega⟩
      simp [takenWord, wordsAtHand, hd, hw, hW, readRow, pipeWord]
    | cons w ws =>
      have := hl.words
      rw [hw] at this
      simpa [takenWord, wordsAtHand, hd, hw] using this.1

/-- What an operation can do when it answers a next state. -/
theorem exec_next {i : Instr} {s t : State} (h : exec i s = .next t) :
    t = s ∨ (∃ v, t = answer v s) ∨
      (s.busy = false ∧ ((∃ m, i = .selectMode m ∧ t = selectMode m s) ∨
        (∃ a b, i = .setSrcDim a b ∧ t = setSrcDim a b s) ∨
        (∃ a b, i = .setDstDim a b ∧ t = setDstDim a b s) ∨
        (∃ x, i = .transform x ∧ t = transformCommand s))) ∨
      (s.busy = true ∧ s.pix < s.n ∧ ((i = .pixNormal ∧ t = copyPixel s) ∨
        ∃ f, (i, f) ∈ filterOperations ∧ t = filterPixel (f s.params) s)) := by
  have read : ∀ {v}, Host.Outcome.next (answer v s) = (.next t : Outcome) → ∃ v, t = answer v s :=
    fun {v} h => ⟨v, by injection h with h; exact h.symm⟩
  have pixel : ∀ {f}, (i, f) ∈ filterOperations → inFrame (filterPixel (f s.params)) s = .next t →
      t = s ∨ (s.busy = true ∧ s.pix < s.n ∧
        ∃ f, (i, f) ∈ filterOperations ∧ t = filterPixel (f s.params) s) := fun {f} hf h =>
    (inFrame_next h).elim (fun h => .inl h.2) fun h => .inr ⟨h.1, h.2.1, f, hf, h.2.2⟩
  cases i with
  | selectMode m =>
    rcases acceptWrite_next h with h | ⟨hb, h⟩
    · exact .inl h.2
    · exact .inr (.inr (.inl ⟨hb, .inl ⟨m, rfl, h⟩⟩))
  | setSrcDim a b =>
    rcases acceptWrite_next h with h | ⟨hb, h⟩
    · exact .inl h.2
    · exact .inr (.inr (.inl ⟨hb, .inr (.inl ⟨a, b, rfl, h⟩)⟩))
  | setDstDim a b =>
    rcases acceptWrite_next h with h | ⟨hb, h⟩
    · exact .inl h.2
    · exact .inr (.inr (.inl ⟨hb, .inr (.inr (.inl ⟨a, b, rfl, h⟩))⟩))
  | transform x =>
    rcases acceptWrite_next h with h | ⟨hb, h⟩
    · exact .inl h.2
    · exact .inr (.inr (.inl ⟨hb, .inr (.inr (.inr ⟨x, rfl, h⟩))⟩))
  | ctrlNop x => exact (acceptWrite_next h).elim (fun h => .inl h.2) fun h => .inl h.2
  | wrIgnored a x => exact (acceptWrite_next h).elim (fun h => .inl h.2) fun h => .inl h.2
  | rdMode => exact .inr (.inl (read h))
  | rdSrcDim => exact .inr (.inl (read h))
  | rdDstDim => exact .inr (.inl (read h))
  | rdZeroCtrl => exact .inr (.inl (read h))
  | rdZeroRes5 => exact .inr (.inl (read h))
  | rdZeroRes67 a => exact .inr (.inl (read h))
  | rdStatus => exact .inr (.inl (read h))
  | pixNormal =>
    rcases inFrame_next h with h | ⟨hb, hp, h⟩
    · exact .inl h.2
    · exact .inr (.inr (.inr ⟨hb, hp, .inl ⟨rfl, h⟩⟩))
  | pixDeut =>
    rcases pixel (f := transformDeut) (by simp [filterOperations]) h with h | ⟨hb, hp, h⟩
    · exact .inl h
    · exact .inr (.inr (.inr ⟨hb, hp, .inr h⟩))
  | pixProt =>
    rcases pixel (f := transformProt) (by simp [filterOperations]) h with h | ⟨hb, hp, h⟩
    · exact .inl h
    · exact .inr (.inr (.inr ⟨hb, hp, .inr h⟩))
  | pixTrit =>
    rcases pixel (f := transformTrit) (by simp [filterOperations]) h with h | ⟨hb, hp, h⟩
    · exact .inl h
    · exact .inr (.inr (.inr ⟨hb, hp, .inr h⟩))
  | pixGray =>
    rcases pixel (f := transformGray) (by simp [filterOperations]) h with h | ⟨hb, hp, h⟩
    · exact .inl h
    · exact .inr (.inr (.inr ⟨hb, hp, .inr h⟩))

/-- The state in which a move of this step starts: its turn is used up. -/
abbrev afterTurn (s : State) : State := { s with turns := s.turns.tail }

/-- What a step other than a reset can do. -/
inductive Move (s : State) : State → Prop where
  | idle : Move s (afterTurn s)
  | write (w : BitVec 35) (rest : List HostOp) (t : State) (hq : s.hostq = .ctrlWrite w :: rest)
      (hb : s.busy = false) (he : exec (decodeWrite w) { s with turns := s.turns.tail, hostq := rest } = .next t) : Move s t
  | read (a : BitVec 3) (rest : List HostOp) (t : State) (hq : s.hostq = .ctrlRead a :: rest)
      (he : exec (decodeRead a) { s with turns := s.turns.tail, hostq := rest } = .next t) : Move s t
  | loadSrc (i : Index) (rest : List HostOp) (t : State) (hq : s.hostq = .loadSrc i :: rest)
      (he : hostLoadSrc i { s with turns := s.turns.tail, hostq := rest } = .next t) : Move s t
  | storeSrc (i : Index) (v : Pixel) (rest : List HostOp) (t : State) (hq : s.hostq = .storeSrc i v :: rest)
      (he : hostStoreSrc i v { s with turns := s.turns.tail, hostq := rest } = .next t) : Move s t
  | loadDst (i : Index) (rest : List HostOp) (t : State) (hq : s.hostq = .loadDst i :: rest)
      (he : hostLoadDst i { s with turns := s.turns.tail, hostq := rest } = .next t) : Move s t
  | storeDst (i : Index) (v : Pixel) (rest : List HostOp) (t : State) (hq : s.hostq = .storeDst i v :: rest)
      (he : hostStoreDst i v { s with turns := s.turns.tail, hostq := rest } = .next t) : Move s t
  | pixel (i : Instr) (t : State) (hb : s.busy = true) (hd : decodePixel s.mode = .ok i)
      (he : exec i (afterTurn s) = .next t) : Move s t

/-- What a fetch does to reach a next state. -/
def Fetched.answers (f : Fetched) (t : State) : Prop :=
  match f with
  | .run c s => runCode c s = .next t
  | .other o => o = .next t

theorem step_eq_next {s t : State} : step s = .next t ↔ (fetch s).answers t := by
  unfold step
  cases fetch s <;> rfl

theorem hostTurn_move {s t : State} (h : (hostTurn (afterTurn s)).answers t) : Move s t := by
  cases hq : s.hostq with
  | nil =>
    simp only [hostTurn, hq, Fetched.answers] at h
    injection h with h
    exact h ▸ .idle
  | cons op rest =>
    simp only [hostTurn, hq] at h
    split at h
    · simp only [Fetched.answers] at h
      injection h with h
      exact h ▸ .idle
    · next hw =>
      cases op with
      | ctrlWrite w => exact .write w rest t hq (by simpa [mustWait] using hw) h
      | ctrlRead a => exact .read a rest t hq h
      | loadSrc i => exact .loadSrc i rest t hq h
      | storeSrc i v => exact .storeSrc i v rest t hq h
      | loadDst i => exact .loadDst i rest t hq h
      | storeDst i v => exact .storeDst i v rest t hq h

theorem pipeTurn_move {s t : State} (h : (pipeTurn (afterTurn s)).answers t) : Move s t := by
  unfold pipeTurn at h
  split at h
  · next hb =>
    simp only [Fetched.answers, runCode, decode] at h
    split at h
    · next i hd => exact .pixel i t hb hd h
    · exact absurd h (by simp)
  · simp only [Fetched.answers] at h
    injection h with h
    exact h ▸ .idle

/-- The inversion lemma of `step`: a reset, or one of the moves. -/
theorem step_next {s t : State} (h : step s = .next t) :
    (∃ ts, s.turns = .reset :: ts ∧ t = resetStep { s with turns := ts }) ∨
      (s.turns.head? ≠ some .reset ∧ Move s t) := by
  rw [step_eq_next] at h
  unfold fetch at h
  cases ht : s.turns with
  | nil =>
    have hs : s = afterTurn s := by
      cases s
      cases ht
      rfl
    simp only [ht] at h
    refine .inr ⟨by simp, ?_⟩
    split at h
    · exact hostTurn_move (hs ▸ h)
    · exact pipeTurn_move (hs ▸ h)
  | cons turn ts =>
    have hs : ({ s with turns := ts } : State) = afterTurn s := by simp [afterTurn, ht]
    cases turn with
    | reset =>
      simp only [ht, Fetched.answers] at h
      injection h with h
      exact .inl ⟨ts, rfl, h.symm⟩
    | host =>
      simp only [ht] at h
      exact .inr ⟨by simp, hostTurn_move (hs ▸ h)⟩
    | pipe =>
      simp only [ht] at h
      exact .inr ⟨by simp, pipeTurn_move (hs ▸ h)⟩

end Sys2Proof.Machine
end

