-- ==== Sys2Proof/Tests/Slice0.lean ====
section
/-! SUPPORT. Tests of the model, each a named theorem on fixed values taken from `spec/95_test_vectors.md`, and for
every statement with hypotheses a witness that meets them all. -/

namespace Sys2Proof.Tests

open Sys2Proof Sys2Proof.Machine

/-! ### WellFormed: an ill-formed term for each check -/

theorem test_wrIgnored_below_four_refused : (Instr.wrIgnored 3#3 5#32).wellFormed = false := by decide
theorem test_rdZeroRes67_below_six_refused : (Instr.rdZeroRes67 5#3).wellFormed = false := by decide

/-! ### Decoding: one string for each constructor, its bits written out from the tables of R56 -/

theorem test_decode_selectMode :
    decode (.cw 0b000_00000000000000000000000000000011#35) = .ok (.selectMode 3) := by decide
theorem test_decode_setSrcDim :
    decode (.cw 0b001_0000000000000010_0000000000000100#35) = .ok (.setSrcDim 2 4) := by decide
theorem test_decode_setDstDim :
    decode (.cw 0b010_1111111111111111_0000000000000000#35) = .ok (.setDstDim 65535 0) := by decide
theorem test_decode_transform :
    decode (.cw 0b011_0000000000000000000000000000000_1#35) = .ok (.transform 0) := by decide
theorem test_decode_ctrlNop :
    decode (.cw 0b011_1111111111111111111111111111111_0#35) = .ok (.ctrlNop 0x7FFFFFFF) := by decide
theorem test_decode_wrIgnored :
    decode (.cw 0b100_00000000000000000000000000000000#35) = .ok (.wrIgnored 4 0) := by decide
theorem test_decode_rdMode : decode (.cr 0b000#3) = .ok .rdMode := by decide
theorem test_decode_rdSrcDim : decode (.cr 0b001#3) = .ok .rdSrcDim := by decide
theorem test_decode_rdDstDim : decode (.cr 0b010#3) = .ok .rdDstDim := by decide
theorem test_decode_rdZeroCtrl : decode (.cr 0b011#3) = .ok .rdZeroCtrl := by decide
theorem test_decode_rdStatus : decode (.cr 0b100#3) = .ok .rdStatus := by decide
theorem test_decode_rdZeroRes5 : decode (.cr 0b101#3) = .ok .rdZeroRes5 := by decide
theorem test_decode_rdZeroRes67 : decode (.cr 0b110#3) = .ok (.rdZeroRes67 6) := by decide
theorem test_decode_pixNormal : decode (.px 0b000#3) = .ok .pixNormal := by decide
theorem test_decode_pixDeut : decode (.px 0b001#3) = .ok .pixDeut := by decide
theorem test_decode_pixProt : decode (.px 0b010#3) = .ok .pixProt := by decide
theorem test_decode_pixTrit : decode (.px 0b011#3) = .ok .pixTrit := by decide
theorem test_decode_pixGray : decode (.px 0b100#3) = .ok .pixGray := by decide
theorem test_decode_reserved_pixel_code : decode (.px 0b101#3) = .error (.reservedPixelCode 5) := by decide

/-! ### One step of each operation -/

/-- The test-only tritan constants `T0` (`spec/95_test_vectors.md` section 2.4). -/
def tritanT0 : TriParams where
  a := ⟨⟨1 / 2, 1 / 2, 0⟩, ⟨1 / 4, 3 / 4, 0⟩, ⟨0, 0, 1⟩⟩
  b := ⟨⟨4, -3, 0⟩, ⟨-1, 2, 0⟩, ⟨0, 0, 2⟩⟩
  t := 1
  p1 := -1
  q1 := 2
  p2 := 1
  q2 := 0

/-- The test-only tritan constants `T1` (section 2.5): the `L = 0` corner. -/
def tritanT1 : TriParams where
  a := ⟨⟨1, -1, 0⟩, ⟨0, 1, 0⟩, ⟨0, 0, 1⟩⟩
  b := ⟨⟨1, 0, 0⟩, ⟨0, 1, 0⟩, ⟨0, 0, 1⟩⟩
  t := 2
  p1 := 0
  q1 := 0
  p2 := 0
  q2 := 1

/-- The reference tables with the constants `t` and the `streaming` driver. -/
def withTritan (t : TriParams) : Params :=
  { fwd := fwdReference, inv := invReference, tri := t, driver := .streaming }

/-- The same with `T0` and the `row_buffered` driver. -/
def rowBuffered : Params := { withTritan tritanT0 with driver := .rowBuffered }

/-- Right after reset, with `T0`. -/
def idle : State := { State.reset with params := withTritan tritanT0 }

/-- In a frame of two pixels in mode `m`, before its first pixel, which is `p`; the source words are `p`, `p`. -/
def running (m : BitVec 3) (p : Pixel) : State :=
  { idle with
    mode := m, srcW := 2#16, srcH := 1#16, dstW := 2#16, dstH := 1#16, busy := true, n := 2#32,
    src := Memory.write (Memory.write [] 0 p) 1 p }

/-- A field of the next state, when there is one. -/
def after {α : Type} (o : Outcome) (f : State → α) : Option α :=
  match o with
  | .next s => some (f s)
  | .fault _ => none
  | .refused _ => none

theorem test_selectMode_largest_legal :
    after (exec (.selectMode 4) { idle with mode := 3#3 }) (fun s => (s.mode, s.errMode)) = some (4, false) := by decide
theorem test_selectMode_whole_word :
    after (exec (.selectMode 0x100) { idle with mode := 2#3 }) (fun s => (s.mode, s.errMode)) = some (2, true) := by decide
theorem test_setSrcDim :
    after (exec (.setSrcDim 2 4) idle) (fun s => (s.srcW, s.srcH, s.dstW, s.dstH)) = some (4, 2, 0, 0) := by decide
theorem test_setDstDim :
    after (exec (.setDstDim 65535 0) idle) (fun s => (s.dstW, s.dstH, s.srcW, s.srcH)) = some (0, 65535, 0, 0) := by decide
theorem test_transform_largest_frame :
    after (exec (.transform 0)
      { idle with srcW := 0xFFFF#16, srcH := 0xFFFF#16, dstW := 0xFFFF#16, dstH := 0xFFFF#16, done := true })
      (fun s => (s.n, s.busy, s.done)) = some (0xFFFE0001, true, false) := by decide
theorem test_transform_same_area_other_shape :
    after (exec (.transform 0) { idle with srcW := 2#16, srcH := 3#16, dstW := 3#16, dstH := 2#16, done := true })
      (fun s => (s.errDim, s.busy, s.done, s.n)) = some (true, false, true, 0) := by decide
theorem test_ctrlNop : after (exec (.ctrlNop 0x7FFFFFFF) idle) (fun s => (s.busy, s.done, s.n)) = some (false, false, 0) := by
  decide
theorem test_wrIgnored_clears_nothing :
    after (exec (.wrIgnored 4 0) { idle with errMode := true, done := true }) (fun s => (s.errMode, s.done)) =
      some (true, true) := by decide
theorem test_rdMode : after (exec .rdMode { idle with mode := 3#3 }) (·.reply) = some (some 3) := by decide
theorem test_rdSrcDim :
    after (exec .rdSrcDim { idle with srcW := 4#16, srcH := 2#16 }) (·.reply) = some (some 0x00020004) := by decide
theorem test_rdDstDim :
    after (exec .rdDstDim { idle with dstW := 0#16, dstH := 65535#16 }) (·.reply) = some (some 0xFFFF0000) := by decide
theorem test_rdZeroCtrl : after (exec .rdZeroCtrl { idle with busy := true }) (·.reply) = some (some 0) := by decide
theorem test_rdZeroRes5 : after (exec .rdZeroRes5 { idle with done := true }) (·.reply) = some (some 0) := by decide
theorem test_rdZeroRes67 : after (exec (.rdZeroRes67 7) { idle with done := true }) (·.reply) = some (some 0) := by decide
theorem test_rdStatus_done_and_both_errors :
    after (exec .rdStatus { idle with done := true, errMode := true, errDim := true }) (·.reply) =
      some (some 0x302) := by decide
theorem test_rdStatus_running_after_error :
    after (exec .rdStatus { idle with busy := true, errMode := true }) (·.reply) = some (some 0x101) := by decide
theorem test_pixNormal_keeps_alpha :
    after (exec .pixNormal (running 0#3 0x12345678)) (fun s => (memRead s.dst 0#32, s.pix, s.prevValid)) =
      some (0x12345678, 1, false) := by decide
theorem test_pixDeut_negative_sum :
    after (exec .pixDeut (running 1#3 0xFFFF0000)) (fun s => (memRead s.dst 0#32, s.prevOut, s.busy)) =
      some (0xFF929200, 0xFF929200, true) := by decide +kernel
theorem test_pixDeut_high_clamp :
    after (exec .pixDeut (running 1#3 0xFF00FFFF)) (fun s => memRead s.dst 0#32) = some 0xFFD9D9FF := by decide +kernel
theorem test_pixProt :
    after (exec .pixProt (running 2#3 0x12345678)) (fun s => memRead s.dst 0#32) = some 0xFF535378 := by decide +kernel
/-- The stale pair of another mode is not used: `PREV_VALID = 0` (program P4). -/
theorem test_pixProt_stale_pair :
    after (exec .pixProt { running 2#3 0xFFFF0000 with prevIn := 0xFFFF0000#32, prevOut := 0xFF929200#32 })
      (fun s => memRead s.dst 0#32) = some 0xFF5E5E1C := by decide +kernel
theorem test_pixTrit_saturates :
    after (exec .pixTrit (running 3#3 0xFFFF0000)) (fun s => memRead s.dst 0#32) = some 0xFFFF141C := by decide +kernel
theorem test_pixTrit_zero_l :
    after (exec .pixTrit { running 3#3 0xFF808080 with params := withTritan tritanT1 }) (fun s => memRead s.dst 0#32) =
      some 0xFF008080 := by decide +kernel
theorem test_pixGray_exact_multiple :
    after (exec .pixGray (running 4#3 0xFF003A00)) (fun s => memRead s.dst 0#32) = some 0xFF262626 := by decide +kernel
/-- The last pixel, a hit: the frame ends in the same step (section 2.6). -/
theorem test_pixGray_last_pixel_hit :
    after (exec .pixGray { running 4#3 0x12345678 with
        pix := 1#32, prevValid := true, prevIn := 0x12345678#32, prevOut := 0xFF3D3D3D#32 })
      (fun s => (memRead s.dst 1#32, s.pix, s.busy, s.done)) = some (0xFF3D3D3D, 2, false, true) := by decide +kernel

/-- A store of the host into the running frame happens (R160, R161). -/
theorem test_host_store_to_running_source :
    after (step { running 0#3 1#32 with hostq := [.storeSrc 1#32 9#32], turns := [.host] })
      (fun s => (memRead s.src 1#32, s.pix, s.busy)) = some (9, 0, true) := by decide
theorem test_host_store_to_running_destination :
    after (step { running 0#3 1#32 with hostq := [.storeDst 1#32 9#32], turns := [.host] })
      (fun s => (memRead s.dst 1#32, memRead s.dstBefore 1#32, s.busy)) = some (9, 9, true) := by decide
/-- Where the records say that the pipe takes 7 at index 0 and that the host's 9 stays at index 1. -/
theorem test_pixel_step_follows_the_records :
    after (exec .pixNormal { running 0#3 1#32 with srcTaken := [(0, 7#32)], dstKept := [(1, 9#32)] })
      (fun s => memRead s.dst 0#32) = some 7 ∧
    after (exec .pixNormal { running 0#3 1#32 with pix := 1#32, srcTaken := [(0, 7#32)], dstKept := [(1, 9#32)] })
      (fun s => memRead s.dst 1#32) = some 9 := by decide

/-- With a `row_buffered` driver the first pixel step of a row reads the row (R114); the next one works off the buffer,
and does not read `SRC` again. -/
theorem test_row_buffered_reads_the_row :
    after (exec .pixNormal { running 0#3 7#32 with params := rowBuffered, src := [(0, 7#32), (1, 8#32), (2, 9#32)] })
      (fun s => (memRead s.dst 0#32, s.pix, s.line)) = some (7, 1, [8]) ∧
    after (exec .pixNormal { running 0#3 7#32 with params := rowBuffered, pix := 1#32, line := [8#32] })
      (fun s => (memRead s.dst 1#32, s.done, s.line)) = some (8, true, []) := by decide

/-- A host operation of each kind is pending, the host has the turn and the machine is idle. -/
def hostHas (op : HostOp) : State := { idle with hostq := [op], turns := [.host] }

/-- Two instances side by side: one in a frame of mode 0, one whose host selects mode 3 (R44). -/
def pair : System := { insts := [running 0#3 1#32, hostHas (.ctrlWrite 3#35)], order := [1, 0, 0] }

/-- A field of the next system, when there is one. -/
def afterSystem {α : Type} (o : Host.Outcome System Fault Refusal) (f : System → α) : Option α :=
  match o with
  | .next y => some (f y)
  | .fault _ => none
  | .refused _ => none

/-- Each instance has its own `MODE` and its own `DST` (R44): the `SELECT_MODE` reaches instance 1 only, the pixel
instance 0 only. -/
theorem test_instances_side_by_side :
    afterSystem (systemSteps 1 pair) (fun y => y.insts.map fun s => (s.mode, s.pix, memRead s.dst 0#32)) =
      some [(0, 0, 0), (3, 0, 0)] ∧
    afterSystem (systemSteps 3 pair) (fun y => y.insts.map fun s => (s.mode, s.pix, s.done, memRead s.dst 1#32)) =
      some [(0, 2, true, 1), (3, 0, false, 0)] := by decide

/-- Two instances start in the same state (R146), and with no order left each moves in turn. -/
theorem test_instances_after_reset :
    (System.reset 2).insts = [State.reset, State.reset] ∧
    afterSystem (System.step { pair with order := [] }) (·.order) = some [1] := ⟨rfl, by decide⟩

/-! ### Witnesses: states that meet the hypotheses of the statements -/

/-- A `streaming` driver with an empty line buffer, in any frame. -/
theorem streaming_line {s : State} (hd : s.params.driver = .streaming) (hl : s.line = []) : LineRight s :=
  ⟨fun _ => hl, fun h => Driver.noConfusion (hd.symm.trans h), by rw [hl]; trivial⟩

/-- The machine of `running` meets the invariant in every legal mode. -/
theorem running_inv {m : BitVec 3} (hm : m.toNat ≤ 4) {p : Pixel}
    (hp : Memory.wf (Memory.write (Memory.write [] 0 p) 1 p) = true) : Inv (running m p) :=
  ⟨hm, fun _ => show 0#32 < 2#32 by decide, fun h => Bool.noConfusion (show true = false from h), fun _ => rfl,
    fun _ => ⟨rfl, rfl, show 2#32 = pixelCount 2#16 1#16 by decide⟩,
    fun _ h => Bool.noConfusion (show false = true from h), hp, rfl, fun _ => streaming_line rfl rfl⟩

theorem running_sound (m : BitVec 3) (p : Pixel) : FrameSound (running m p) :=
  ⟨fun _ _ h => absurd (BitVec.lt_def.1 h) (Nat.not_lt_zero _), fun _ _ _ _ => rfl, rfl⟩

theorem idle_inv : Inv idle :=
  ⟨by decide, fun h => absurd h (by decide), fun _ => rfl, fun h => absurd h (by decide),
    fun h => absurd h (by decide), fun h => absurd h (by decide), rfl, rfl, fun h => absurd h (by decide)⟩

/-- The shapes of `SRC_DIM` and `DST_DIM` agree on a `w` by `h` raster. -/
def sized (w h : BitVec 16) : State := { idle with srcW := w, srcH := h, dstW := w, dstH := h }

theorem sized_inv (w h : BitVec 16) : Inv (sized w h) :=
  have no : ∀ {P : Prop}, (sized w h).busy = true → P := fun h => Bool.noConfusion (show false = true from h)
  ⟨show (0#3).toNat ≤ 4 by decide, no, fun _ => rfl, no, no, no, rfl, rfl, no⟩

theorem witness_DecodeOfEncodeIsTheOperation :
    (Instr.wrIgnored 4 0).wellFormed = true ∧ (Instr.wrIgnored 7 0xFFFFFFFF).wellFormed = true ∧
    (Instr.rdZeroRes67 6).wellFormed = true ∧ (Instr.selectMode 5).wellFormed = true := by decide

theorem witness_EncodeOfDecodeIsTheBitString :
    decode (.cw 0x3FFFFFFFF#35) = .ok (.transform 0x7FFFFFFF) ∧ decode (.cr 7#3) = .ok (.rdZeroRes67 7) ∧
    decode (.px 4#3) = .ok .pixGray := by decide

theorem witness_OnlyReservedPixelCodesAreRejected : (4#3).toNat ≤ 4 ∧ 4 < (5#3).toNat ∧ 4 < (7#3).toNat := by decide

theorem witness_HostTurnRunsTheTransaction :
    ((hostHas (.ctrlWrite 3#35)).hostq = [.ctrlWrite 3#35] ∧ (hostHas (.ctrlWrite 3#35)).busy = false ∧
      decode (.cw 3#35) = .ok (.selectMode 3) ∧ (hostHas (.ctrlWrite 3#35)).turns = [.host] ∧
      ({ hostHas (.ctrlWrite 3#35) with turns := [] } : State).turns = []) ∧
    ((hostHas (.ctrlRead 4#3)).hostq = [.ctrlRead 4#3] ∧ decode (.cr 4#3) = .ok .rdStatus ∧
      (hostHas (.ctrlRead 4#3)).turns = [.host]) := by decide

theorem witness_PipeTurnRunsThePixelOperation :
    (running 4#3 1#32).busy = true ∧ decode (.px (running 4#3 1#32).mode) = .ok .pixGray ∧
    ({ running 4#3 1#32 with turns := [.pipe] } : State).turns = [.pipe] ∧
    (running 4#3 1#32).turns = [] ∧ (running 4#3 1#32).hostq = [] ∧
    ({ running 4#3 1#32 with hostq := [.ctrlWrite 0#35] } : State).hostq = [.ctrlWrite 0#35] ∧
    ({ running 5#3 1#32 with turns := [.pipe] } : State).busy = true ∧ 4 < (running 5#3 1#32).mode.toNat := by decide

theorem witness_PlacedWordIsTheNextOperation :
    decodeTableWord 40 3 = some (.selectMode 3) ∧ decodeTableWord 8 7 = some (.rdZeroRes67 7) := by decide

theorem witness_SelectModeSetsModeOrRaises : idle.busy = false ∧ (4#32).toNat ≤ 4 ∧ ¬ (5#32).toNat ≤ 4 := by decide

theorem witness_DimensionWritesStoreBothFields : idle.busy = false := rfl

theorem witness_TransformStartsAFrameOrRaises :
    (running 1#3 1#32).busy = true ∧
    (idle.busy = false ∧ ({ idle with srcW := 1#16 } : State).srcW ≠ ({ idle with srcW := 1#16 } : State).dstW) ∧
    ((sized 0#16 5#16).busy = false ∧ (sized 0#16 5#16).srcW = (sized 0#16 5#16).dstW ∧
      (sized 0#16 5#16).srcH = (sized 0#16 5#16).dstH) ∧
    ((sized 1#16 1#16).busy = false ∧ (sized 1#16 1#16).srcW = (sized 1#16 1#16).dstW ∧
      (sized 1#16 1#16).srcH = (sized 1#16 1#16).dstH) := by decide

theorem witness_ControlWritesWaitWhileBusy :
    (running 1#3 1#32).busy = true ∧ (Instr.selectMode 0).isWrite = true ∧
    ({ running 1#3 1#32 with hostq := [.ctrlWrite 0#35], turns := [.host] } : State).hostq = [.ctrlWrite 0#35] ∧
    ({ running 1#3 1#32 with hostq := [.ctrlWrite 0#35], turns := [.host] } : State).turns = [.host] := by decide

theorem witness_ReadsReturnTheirRegister :
    (running 1#3 1#32).busy = true ∧ (after (exec .rdMode (running 1#3 1#32)) (·.mode)).isSome = true := by decide

theorem witness_StatusReadsTheFlags : Inv (running 1#3 1#32) ∧ Inv idle :=
  ⟨running_inv (by decide) (by decide), idle_inv⟩

theorem witness_OnlyTwoOperationsRaise :
    after (exec (.selectMode 5) idle) (·.errMode) = some (!idle.errMode) ∧
    after (exec (.transform 0) { idle with srcW := 1#16 }) (·.errDim) = some (!idle.errDim) ∧
    (idle.busy = false ∧ 4 < (5#32).toNat) ∧
    ({ idle with srcH := 1#16 } : State).srcH ≠ ({ idle with srcH := 1#16 } : State).dstH := by decide

theorem witness_ErrorBitsStayUntilReset :
    (after (step { idle with errMode := true, errDim := true, turns := [.pipe] }) (·.errMode) = some true ∧
      ({ idle with errMode := true, errDim := true, turns := [.pipe] } : State).turns.head? ≠ some .reset) ∧
    (after (step { idle with errMode := true, turns := [.reset] }) (·.errMode) = some false ∧
      ({ idle with errMode := true, turns := [.reset] } : State).turns.head? = some .reset) := by decide

theorem witness_ErrorBitsBlockNothing : after (exec (.selectMode 2) idle) (·.mode) = some 2 := by decide

theorem witness_NormalModeCopiesTheWord :
    ((running 0#3 1#32).busy = true ∧ (running 0#3 1#32).pix < (running 0#3 1#32).n) ∧
    ({ running 0#3 1#32 with pix := 1#32 } : State).pix < (running 0#3 1#32).n ∧
    (running 0#3 1#32).params.driver = .streaming ∧ (running 0#3 1#32).srcTaken = [] ∧
    (running 0#3 1#32).dstKept = [] := by decide

theorem witness_FilterModesWriteCachedOrComputed :
    (Instr.pixGray, transformGray) ∈ filterOperations ∧
    ((running 4#3 1#32).busy = true ∧ (running 4#3 1#32).pix < (running 4#3 1#32).n) ∧
    ((running 4#3 1#32).prevValid = false ∧
      ({ running 4#3 1#32 with prevValid := true, prevIn := 1#32 } : State).prevIn =
        memRead (running 4#3 1#32).src 0#32) := by
  refine ⟨by simp [filterOperations], by decide, by decide⟩

/-- Between frames, and at `PIX = N` with `BUSY = 1`. -/
theorem witness_PixelOperationsOutsideAFrame :
    (idle.busy = false ∧ (Instr.pixDeut, transformDeut) ∈ filterOperations) ∧
    ({ running 1#3 1#32 with pix := 2#32 } : State).busy = true ∧
    ¬ ({ running 1#3 1#32 with pix := 2#32 } : State).pix < ({ running 1#3 1#32 with pix := 2#32 } : State).n :=
  ⟨⟨rfl, by simp [filterOperations]⟩, rfl, by decide⟩

theorem witness_OperationsStoreOnlyAtPix :
    after (exec .pixNormal (running 0#3 1#32)) (fun t => memRead t.dst 0#32) = some 1#32 ∧
    memRead (running 0#3 1#32).dst 0#32 ≠ 1#32 ∧ Memory.wf (running 0#3 1#32).dst = true ∧
    (Instr.transform 0).isWrite = true ∧ (after (exec (.transform 0) idle) (·.done)).isSome = true := by decide

theorem witness_FilterModesWriteOpaqueWords :
    Inv (running 1#3 1#32) ∧ (running 1#3 1#32).busy = true ∧ (running 1#3 1#32).mode ≠ 0#3 ∧
    decode (.px (running 1#3 1#32).mode) = .ok .pixDeut ∧ ∃ t, exec .pixDeut (running 1#3 1#32) = .next t :=
  ⟨running_inv (by decide) (by decide), rfl, by decide, rfl,
    filterPixel (transformDeut (withTritan tritanT0)) (running 1#3 1#32), rfl⟩

theorem witness_PixelStepWritesTheTransform :
    Inv (running 0#3 1#32) ∧ Inv (running 4#3 1#32) ∧ (running 4#3 1#32).busy = true ∧
    decode (.px (running 4#3 1#32).mode) = .ok .pixGray :=
  ⟨running_inv (by decide) (by decide), running_inv (by decide) (by decide), rfl, rfl⟩

/-- The second state holds a right pair for mode 0, the first an empty cache. -/
theorem witness_CacheAndDriverAreInvisible :
    Inv (running 0#3 1#32) ∧
    (Inv { running 0#3 1#32 with prevValid := true, prevIn := 7#32, prevOut := 7#32 } ∧
      sameButCache (running 0#3 1#32) { running 0#3 1#32 with prevValid := true, prevIn := 7#32, prevOut := 7#32 }) ∧
    (Inv { running 0#3 1#32 with params := rowBuffered } ∧
      sameButDriver (running 0#3 1#32) { running 0#3 1#32 with params := rowBuffered }) ∧
    ∃ t, step (running 0#3 1#32) = .next t :=
  ⟨running_inv (by decide) (by decide),
    ⟨⟨by decide, fun _ => by decide, fun h => absurd h (by decide), fun _ => rfl, fun _ => ⟨rfl, rfl, by decide⟩,
      fun _ _ => rfl, by decide, rfl, fun _ => streaming_line rfl rfl⟩, rfl⟩,
    ⟨⟨by decide, fun _ => by decide, fun h => absurd h (by decide), fun _ => rfl, fun _ => ⟨rfl, rfl, by decide⟩,
      fun _ h => absurd h (by decide), by decide, rfl,
      fun _ => ⟨fun _ => rfl, fun _ => ⟨by decide, 0, by decide, by decide⟩, trivial⟩⟩, rfl⟩,
    copyPixel (running 0#3 1#32), rfl⟩

/-- With each driver form; a line buffer that is empty, and one that is not. -/
theorem witness_DriverReadsAWordOrARow :
    ((running 4#3 1#32).busy = true ∧ (running 4#3 1#32).pix < (running 4#3 1#32).n ∧
      (running 4#3 1#32).mode.toNat ≤ 4 ∧ (running 4#3 1#32).params.driver = .streaming) ∧
    (({ running 4#3 1#32 with params := rowBuffered } : State).params.driver = .rowBuffered ∧
      ({ running 4#3 1#32 with params := rowBuffered } : State).line = [] ∧
      ({ running 4#3 1#32 with params := rowBuffered } : State).srcW ≠ 0#16 ∧
      0 + 1 < ({ running 4#3 1#32 with params := rowBuffered } : State).srcW.toNat) ∧
    ({ running 4#3 1#32 with params := rowBuffered, pix := 1#32, line := [1#32] } : State).line = 1#32 :: [] ∧
    ({ running 4#3 1#32 with params := rowBuffered, pix := 1#32, line := [1#32] } : State).pix < 2#32 := by decide

theorem witness_RedGreenFits32Bits :
    ∃ ps : Params, ∃ p : Pixel, ∃ r g b : Int, r = linInt ps (redOf p) ∧ g = linInt ps (greenOf p) ∧
      b = linInt ps (blueOf p) ∧ ps.fwd = fwdReference :=
  ⟨withTritan tritanT0, 0xFFFF0000#32, _, _, _, rfl, rfl, rfl, rfl⟩

theorem witness_RedGreenProperties :
    transformDeut ∈ [transformDeut, transformProt] ∧
    (0x00FF0000#32).extractLsb' 0 24 = (0xFFFF0000#32).extractLsb' 0 24 ∧
    greenOf 0xFF7F7F00#32 = redOf 0xFF7F7F00#32 :=
  ⟨by simp, by decide, by decide⟩

theorem witness_GrayscaleBucketIsExact :
    ∃ ps : Params, ∃ p : Pixel, ∃ r g b : Int, r = linInt ps (redOf p) ∧ g = linInt ps (greenOf p) ∧
      b = linInt ps (blueOf p) :=
  ⟨withTritan tritanT0, 0xFF003A00#32, _, _, _, rfl, rfl, rfl⟩

theorem witness_GrayscaleProperties :
    (0x00FF0000#32).extractLsb' 0 24 = (0xFFFF0000#32).extractLsb' 0 24 ∧
    redOf 0xFF373737#32 = 0x37#8 ∧ greenOf 0xFF373737#32 = 0x37#8 ∧ blueOf 0xFF373737#32 = 0x37#8 := by decide

theorem witness_TritanProperties : (0x00FF0000#32).extractLsb' 0 24 = (0xFFFF0000#32).extractLsb' 0 24 := by decide

theorem witness_TritanTransformWrittenOut :
    ∃ (ps : Params) (p : Pixel) (a b : Mat3) (r g bl l m s : Rat), a = ps.tri.a ∧ b = ps.tri.b ∧
      r = ((lin ps (redOf p)).toNat : Rat) ∧ g = ((lin ps (greenOf p)).toNat : Rat) ∧
      bl = ((lin ps (blueOf p)).toNat : Rat) ∧
      l = (a.row1.x * r + a.row1.y * g + a.row1.z * bl) / 32767 ∧
      m = (a.row2.x * r + a.row2.y * g + a.row2.z * bl) / 32767 ∧
      s = (if l ≠ 0 ∧ m / l < ps.tri.t then ps.tri.p1 * l + ps.tri.q1 * m else ps.tri.p2 * l + ps.tri.q2 * m) :=
  ⟨withTritan tritanT0, 0xFFFF0000#32, _, _, _, _, _, _, _, _, rfl, rfl, rfl, rfl, rfl, rfl, rfl, rfl⟩

theorem witness_PresetTableHasTwoRows : (0#3) ≠ 1#3 ∧ (0#3) ≠ 2#3 := by decide

/-- Below the threshold, at it, and `L = 0`. -/
theorem witness_TritanStages :
    ((2 : Rat) ≠ 0 ∧ (1 : Rat) / 2 < tritanT0.t) ∧ ((2 : Rat) ≠ 0 ∧ tritanT0.t ≤ (2 : Rat) / 2) ∧ (0 : Rat) = 0 := by
  decide +kernel

theorem witness_TritanOutputRule :
    ((-1 / 2 : Rat) < 0) ∧ ((255 : Rat) < 511 / 2) ∧ ((0 : Rat) ≤ 0 ∧ (0 : Rat) ≤ 255) ∧
    ((0 : Rat) ≤ 255 ∧ (255 : Rat) ≤ 255) ∧
    (enc (withTritan tritanT0) 0#8 = 0#8 ∧ enc (withTritan tritanT0) 255#8 = 255#8) := by decide +kernel

theorem witness_WorkedExamplesOfTheTransforms :
    withTritan tritanT0 = { fwd := fwdReference, inv := invReference, tri := tritanT0, driver := .streaming } := rfl

theorem witness_ResetGivesTheResetValues :
    ({ running 1#3 1#32 with turns := [.reset] } : State).turns = [.reset] ∧
    ({ idle with turns := [.reset] } : State).busy = false ∧
    ¬ (2#32) < ({ running 1#3 1#32 with turns := [.reset] } : State).n ∧
    FrameSound { running 1#3 1#32 with turns := [.reset] } ∧
    1#32 < ({ running 1#3 1#32 with turns := [.reset] } : State).n :=
  ⟨rfl, rfl, by decide, ⟨(running_sound 1#3 1#32).written, (running_sound 1#3 1#32).waiting, rfl⟩, by decide⟩

theorem witness_EveryStepKeepsTheInvariant :
    Inv (running 0#3 1#32) ∧ FrameSound (running 0#3 1#32) ∧ ∃ t, step (running 0#3 1#32) = .next t :=
  ⟨running_inv (by decide) (by decide), running_sound _ _, copyPixel (running 0#3 1#32), rfl⟩

theorem witness_LegalStatesAlwaysStep : Inv (running 4#3 1#32) := running_inv (by decide) (by decide)

/-- An accepted `TRANSFORM`; a step in a frame in which the host stores at `N - 1`, and one of the pipe. -/
theorem witness_FrameRecordsFollowTheHost :
    ((sized 1#16 1#16).busy = false ∧ (sized 1#16 1#16).srcW = (sized 1#16 1#16).dstW ∧
      (sized 1#16 1#16).srcH = (sized 1#16 1#16).dstH ∧ (sized 1#16 1#16).srcW ≠ 0#16 ∧
      (sized 1#16 1#16).srcH ≠ 0#16 ∧ ∃ t, exec (.transform 0) (sized 1#16 1#16) = .next t) ∧
    ((running 0#3 1#32).srcTaken = [] ∧ (running 0#3 1#32).dstKept = []) ∧
    (∀ op ∈ [HostOp.storeSrc 1#32 9#32, .storeDst 1#32 9#32],
      ({ running 0#3 1#32 with hostq := [op], turns := [.host] } : State).busy = true ∧
      ({ running 0#3 1#32 with hostq := [op], turns := [.host] } : State).turns.head? ≠ some .reset ∧
      ∃ t, step { running 0#3 1#32 with hostq := [op], turns := [.host] } = .next t) ∧
    ∃ t, step (running 0#3 1#32) = .next t := by
  refine ⟨⟨rfl, rfl, rfl, by decide, by decide, _, rfl⟩, ⟨rfl, rfl⟩, fun op h => ⟨rfl, nofun, ?_⟩,
    copyPixel (running 0#3 1#32), rfl⟩
  simp only [List.mem_cons, List.not_mem_nil, or_false] at h
  rcases h with rfl | rfl
  · exact ⟨_, rfl⟩
  · exact ⟨_, rfl⟩

/-- A frame of one pixel in mode 0: after the pipe's one step `DONE = 1`, and it was 0 before. -/
theorem witness_ResultOfAFrame :
    Inv (sized 1#16 1#16) ∧ (sized 1#16 1#16).busy = false ∧ (sized 1#16 1#16).srcW = (sized 1#16 1#16).dstW ∧
    (sized 1#16 1#16).srcH = (sized 1#16 1#16).dstH ∧
    undisturbed (pixelCount (sized 1#16 1#16).srcW (sized 1#16 1#16).srcH) (sized 1#16 1#16) ∧
    ∃ s1 t, exec (.transform 0) (sized 1#16 1#16) = .next s1 ∧ s1.done = false ∧ steps 1 s1 = .next t ∧ t.done = true ∧
      (∀ j, j < 1 → ∀ u, steps j s1 = .next u → u.done = false) := by
  refine ⟨sized_inv _ _, rfl, rfl, rfl, ⟨rfl, by decide⟩, _, _, rfl, rfl, rfl, rfl, ?_⟩
  intro j hj u hu
  obtain rfl : j = 0 := by omega
  injection hu with hu
  exact hu ▸ rfl

/-- The boundary clause: an empty frame is done at once. -/
theorem witness_ResultOfAFrame_empty :
    ∃ s1, exec (.transform 0) idle = .next s1 ∧ steps 0 s1 = .next s1 ∧ s1.done = true := ⟨_, rfl, rfl, rfl⟩

/-- The host stores into the frame's one word of each raster, and the pipe moves then. -/
theorem witness_ResultOfADisturbedFrame :
    ∃ s s1 t, s = { sized 1#16 1#16 with hostq := [.storeSrc 0#32 9#32, .storeDst 0#32 5#32] } ∧
      Inv s ∧ s.busy = false ∧ s.srcW = s.dstW ∧ s.srcH = s.dstH ∧ Turn.reset ∉ s.turns ∧
      exec (.transform 0) s = .next s1 ∧ steps 3 s1 = .next t ∧ t.done = true ∧
      (∀ j, j < 3 → ∀ u, steps j s1 = .next u → u.done = false) ∧
      (0#32).toNat < s.srcW.toNat * s.srcH.toNat ∧ s.srcW.toNat * s.srcH.toNat ≤ (1#32).toNat := by
  have no : ∀ {P : Prop}, (sized 1#16 1#16).busy = true → P := fun h => Bool.noConfusion (show false = true from h)
  refine ⟨_, _, _, rfl, ⟨by decide, no, fun _ => rfl, no, no, no, rfl, rfl, no⟩, rfl, rfl, rfl, nofun, rfl, rfl, rfl, ?_,
    by decide, by decide⟩
  intro j hj u hu
  obtain rfl | rfl | rfl : j = 0 ∨ j = 1 ∨ j = 2 := by omega
  · injection hu with hu
    exact hu ▸ rfl
  · injection hu with hu
    exact hu ▸ rfl
  · injection hu with hu
    exact hu ▸ rfl

/-- The hypotheses are those of `witness_ResultOfAFrame`; column 0 of row 0 is in a raster of one pixel. -/
theorem witness_FinishedFrameKeepsTheShape :
    (∃ t, exec (.transform 0) (sized 1#16 1#16) = .next t ∧ t.busy = true ∧ (sized 1#16 1#16).busy = false) ∧
    (1 = (sized 1#16 1#16).srcW.toNat ∧ 1 = (sized 1#16 1#16).srcH.toNat) ∧
    (Inv (sized 1#16 1#16) ∧ undisturbed (pixelCount (sized 1#16 1#16).srcW (sized 1#16 1#16).srcH) (sized 1#16 1#16)) ∧
    (∃ s1 t, exec (.transform 0) (sized 1#16 1#16) = .next s1 ∧ steps 1 s1 = .next t ∧ t.done = true ∧
      (∀ j, j < 1 → ∀ u, steps j s1 = .next u → u.done = false)) ∧
    (0#32).toNat < 1 * 1 := by
  refine ⟨⟨_, rfl, rfl, rfl⟩, by decide, ⟨sized_inv _ _, rfl, by decide⟩, ⟨_, _, rfl, rfl, rfl, ?_⟩, by decide⟩
  intro j hj u hu
  obtain rfl : j = 0 := by omega
  injection hu with hu
  exact hu ▸ rfl

theorem witness_FrameTakesOneStepPerPixel :
    ((running 1#3 1#32).turns.head? ≠ some .reset ∧ ∃ t, step (running 1#3 1#32) = .next t) ∧
    Inv (running 1#3 1#32) ∧ (running 1#3 1#32).busy = true ∧ (running 1#3 1#32).hostq = [] ∧
    (running 1#3 1#32).turns = [] ∧ (running 1#3 1#32).pix.toNat + 1 < (running 1#3 1#32).n.toNat :=
  ⟨⟨by decide, filterPixel (transformDeut (withTritan tritanT0)) (running 1#3 1#32), rfl⟩, running_inv (by decide) (by decide), rfl, rfl, rfl, by decide⟩

theorem witness_EveryFrameEnds :
    Inv (running 1#3 1#32) ∧ (running 1#3 1#32).busy = true ∧ Turn.reset ∉ (running 1#3 1#32).turns :=
  ⟨running_inv (by decide) (by decide), rfl, by decide⟩

/-- The second machine comes with the other driver form, a stale cache, an error bit and `DONE`; the frames are of one pixel in mode 0. -/
theorem witness_EqualFramesGiveEqualResults :
    ∃ s s' s1 s1' t t' : State, ∃ x x' : BitVec 31,
      (Inv s ∧ Inv s' ∧ s.busy = false ∧ s'.busy = false ∧ undisturbed (pixelCount s.srcW s.srcH) s ∧
        undisturbed (pixelCount s'.srcW s'.srcH) s') ∧
      (s.srcW = s.dstW ∧ s.srcH = s.dstH ∧ s'.dstW = s.dstW ∧ s'.dstH = s.dstH ∧ s'.mode = s.mode ∧
        (s'.params.fwd = s.params.fwd ∧ s'.params.inv = s.params.inv ∧ s'.params.tri = s.params.tri) ∧
        s'.srcW = s.srcW ∧ s'.srcH = s.srcH) ∧
      (∀ i : Index, i.toNat < s.srcW.toNat * s.srcH.toNat → memRead s'.src i = memRead s.src i) ∧
      exec (.transform x) s = .next s1 ∧ exec (.transform x') s' = .next s1' ∧
      (steps 1 s1 = .next t ∧ t.done = true ∧ ∀ j, j < 1 → ∀ u, steps j s1 = .next u → u.done = false) ∧
      (steps 1 s1' = .next t' ∧ t'.done = true ∧ ∀ j, j < 1 → ∀ u, steps j s1' = .next u → u.done = false) ∧
      (0#32).toNat < s.srcW.toNat * s.srcH.toNat := by
  have first : ∀ s1 : State, s1.done = false → ∀ j, j < 1 → ∀ u, steps j s1 = .next u → u.done = false := by
    intro s1 h j hj u hu
    obtain rfl : j = 0 := by omega
    injection hu with hu
    exact hu ▸ h
  refine ⟨sized 1#16 1#16, { sized 1#16 1#16 with params := rowBuffered, prevIn := 5#32, errDim := true, done := true }, _, _, _, _, 0, 1,
    ⟨sized_inv _ _, ?_, rfl, rfl, ⟨rfl, by decide⟩, ⟨rfl, by decide⟩⟩, ⟨rfl, rfl, rfl, rfl, rfl, ⟨rfl, rfl, rfl⟩, rfl, rfl⟩,
    fun _ _ => rfl, rfl, rfl, ⟨rfl, rfl, first _ rfl⟩, ⟨rfl, rfl, first _ rfl⟩, by decide⟩
  exact ⟨by decide, fun h => absurd h (by decide), fun _ => rfl, fun h => absurd h (by decide),
    fun h => absurd h (by decide), fun h => absurd h (by decide), rfl, rfl, fun h => absurd h (by decide)⟩

/-- A reset, and a step inside a frame. -/
theorem witness_ConfigurationAndTablesAreFixed :
    (∃ t, step { idle with turns := [.reset] } = .next t) ∧
    (running 0#3 1#32).busy = true ∧ (running 0#3 1#32).turns.head? ≠ some .reset ∧
    ∃ t, step (running 0#3 1#32) = .next t :=
  ⟨⟨_, rfl⟩, rfl, by decide, copyPixel (running 0#3 1#32), rfl⟩

theorem witness_SourceChangesOnlyByTheHost :
    ∃ t, step (hostHas (.storeSrc 0#32 9#32)) = .next t ∧ t.src ≠ (hostHas (.storeSrc 0#32 9#32)).src :=
  ⟨_, rfl, by decide⟩

theorem witness_IdleMachineKeepsItsState :
    idle.busy = false ∧ idle.hostq = [] ∧ idle.turns.head? ≠ some .reset := by decide

/-- The word at `N - 1` is inside the frame, the word at `N` is outside; in each case every operation can be pending. -/
theorem witness_HostReachesItsRasters :
    ((hostHas (.loadSrc 0#32)).turns = [.host] ∧ (hostHas (.loadSrc 0#32)).hostq = [.loadSrc 0#32]) ∧
    (∀ op : HostOp, ({ running 4#3 1#32 with hostq := [op], turns := [.host] } : State).turns = [.host] ∧
      ({ running 4#3 1#32 with hostq := [op], turns := [.host] } : State).hostq = [op]) ∧
    ((running 4#3 1#32).busy = true ∧ 1#32 < (running 4#3 1#32).n) ∧ (running 4#3 1#32).mode.toNat ≤ 4 ∧
    ¬ ((running 4#3 1#32).busy = true ∧ 2#32 < (running 4#3 1#32).n) :=
  ⟨by decide, fun _ => ⟨rfl, rfl⟩, by decide, by decide, by decide⟩

theorem witness_HostLinesStandForOperations : (HostLine.start ≠ .reset) ∧ (HostLine.srcStore 0#32 1#32 ≠ .reset) := by
  decide

/-- The first of the coming moves is instance 1's; it steps, and the system does. -/
theorem witness_InstancesShareNothingMutable :
    pair.upcoming = [1, 0, 0] ∧ pair.insts[1]? = some (hostHas (.ctrlWrite 3#35)) ∧
    (∃ t, step (hostHas (.ctrlWrite 3#35)) = .next t) ∧ (∃ z, pair.step = .next z ∧ z.insts[0]? = some (running 0#3 1#32)) ∧
    0 < 2 :=
  ⟨rfl, rfl, ⟨_, rfl⟩, ⟨_, rfl, rfl⟩, by decide⟩

/-- Both instances of `pair` complete the steps its order gives them; the order has a permutation, and the system
runs on past its end. -/
theorem witness_InstancesRunAsIfAlone :
    (∀ k s, pair.insts[k]? = some s → ∃ t, steps (pair.order.count k) s = .next t) ∧
    List.Perm [0, 1, 0] pair.order ∧ (∃ z, systemSteps 4 pair = .next z) ∧ pair.insts[0]? = some (running 0#3 1#32) := by
  refine ⟨fun k s h => ?_, List.Perm.swap 1 0 [0], ⟨_, rfl⟩, rfl⟩
  match k, h with
  | 0, h => obtain rfl : running 0#3 1#32 = s := by simpa [pair] using h
            exact ⟨_, rfl⟩
  | 1, h => obtain rfl : hostHas (.ctrlWrite 3#35) = s := by simpa [pair] using h
            exact ⟨_, rfl⟩

/-- Two instances that have accepted a `TRANSFORM` of one pixel each. -/
theorem witness_SeveralRastersAreFilteredAtOnce :
    ∃ s1, exec (.transform 0) (sized 1#16 1#16) = .next s1 ∧
      (∀ u ∈ ({ insts := [s1, s1], order := [1] } : System).insts, Inv u) ∧
      ({ insts := [s1, s1], order := [1] } : System).insts[0]? = some s1 ∧
      Inv (sized 1#16 1#16) ∧ (sized 1#16 1#16).busy = false ∧ (sized 1#16 1#16).srcW = (sized 1#16 1#16).dstW ∧
      (sized 1#16 1#16).srcH = (sized 1#16 1#16).dstH ∧
      undisturbed (pixelCount (sized 1#16 1#16).srcW (sized 1#16 1#16).srcH) (sized 1#16 1#16) ∧
      (0#32).toNat < (sized 1#16 1#16).srcW.toNat * (sized 1#16 1#16).srcH.toNat := by
  refine ⟨_, rfl, fun u hu => ?_, rfl, sized_inv _ _, rfl, rfl, rfl, ⟨rfl, by decide⟩, by decide⟩
  have e : u = startFrame (sized 1#16 1#16) := by
    simp only [List.mem_cons, List.not_mem_nil, or_false, or_self] at hu
    exact hu
  subst e
  exact ⟨by decide, fun _ => by decide, fun h => absurd h (by decide), fun _ => rfl, fun _ => ⟨rfl, rfl, by decide⟩,
    fun _ h => absurd h (by decide), rfl, rfl, fun _ => streaming_line rfl rfl⟩

end Sys2Proof.Tests
end

section
/-! PROOFS. The preset coefficient table: its rows, and its entries as signed integers (R18, R58). -/

namespace Sys2Proof.Machine

@[simp] theorem presetRow_one : presetRow 1#3 = some presetDeut := rfl
@[simp] theorem presetRow_two : presetRow 2#3 = some presetProt := rfl

theorem presetRow_of_ne {m : BitVec 3} (h1 : m ≠ 1#3) (h2 : m ≠ 2#3) : presetRow m = none := by
  simp only [presetRow, if_neg h1, if_neg h2]

@[simp] theorem presetDeut_k1_toInt : presetDeut.k1.toInt = 9591 := by decide
@[simp] theorem presetDeut_k2_toInt : presetDeut.k2.toInt = 23173 := by decide
@[simp] theorem presetDeut_k3_toInt : presetDeut.k3.toInt = -730 := by decide

@[simp] theorem presetProt_k1_toInt : presetProt.k1.toInt = 3683 := by decide
@[simp] theorem presetProt_k2_toInt : presetProt.k2.toInt = 29084 := by decide
@[simp] theorem presetProt_k3_toInt : presetProt.k3.toInt = 131 := by decide

/-- `PIX.DEUT` is the red-green transform with the row of mode 1 (R81). -/
theorem map_presetRow_one (ps : Params) (p : Pixel) :
    (presetRow 1#3).map (fun k => transformRedGreen ps k p) = some (transformDeut ps p) := by
  rw [presetRow_one, Option.map_some, transformDeut]

/-- `PIX.PROT` is the red-green transform with the row of mode 2 (R81). -/
theorem map_presetRow_two (ps : Params) (p : Pixel) :
    (presetRow 2#3).map (fun k => transformRedGreen ps k p) = some (transformProt ps p) := by
  rw [presetRow_two, Option.map_some, transformProt]

/-- Settles O29: the two rows are read off the table, and every other mode falls through both of its tests. -/
theorem presetTableHasTwoRows : Obligations.PresetTableHasTwoRows :=
  ⟨⟨presetDeut, presetRow_one, presetDeut_k1_toInt, presetDeut_k2_toInt, presetDeut_k3_toInt⟩,
    ⟨presetProt, presetRow_two, presetProt_k1_toInt, presetProt_k2_toInt, presetProt_k3_toInt⟩,
    fun _ => presetRow_of_ne, map_presetRow_one, map_presetRow_two⟩

end Sys2Proof.Machine
end

section
/-! PROOFS. The numbers in a pixel word: its channels as base-256 digits, and `PACK` as their sum (R50 to R52). -/

namespace Sys2Proof.Machine

theorem alphaOf_toNat (p : Pixel) : (alphaOf p).toNat = p.toNat / 16777216 := by
  have hp : p.toNat < 2 ^ 32 := p.isLt
  rw [alphaOf, BitVec.extractLsb'_toNat, Nat.shiftRight_eq_div_pow]
  omega

theorem redOf_toNat (p : Pixel) : (redOf p).toNat = p.toNat / 65536 % 256 := by
  rw [redOf, BitVec.extractLsb'_toNat, Nat.shiftRight_eq_div_pow]

theorem greenOf_toNat (p : Pixel) : (greenOf p).toNat = p.toNat / 256 % 256 := by
  rw [greenOf, BitVec.extractLsb'_toNat, Nat.shiftRight_eq_div_pow]

theorem blueOf_toNat (p : Pixel) : (blueOf p).toNat = p.toNat % 256 := by
  rw [blueOf, BitVec.extractLsb'_toNat, Nat.shiftRight_zero]

/-- The four channels are the base-256 digits of the word. -/
theorem toNat_eq_channels (p : Pixel) : p.toNat =
    (alphaOf p).toNat * 16777216 + (redOf p).toNat * 65536 + (greenOf p).toNat * 256 + (blueOf p).toNat := by
  rw [alphaOf_toNat, redOf_toNat, greenOf_toNat, blueOf_toNat]
  omega

/-- The digits of a packed word are `0xFF` and the three operands. -/
theorem pack_toNat (r g b : Channel) :
    (pack r g b).toNat = 0xFF000000 + r.toNat * 65536 + g.toNat * 256 + b.toNat := by
  rw [toNat_eq_channels (pack r g b), alphaOf_pack, redOf_pack, greenOf_pack, blueOf_pack]
  rfl

/-- Settles O27: the word is the sum of its base-256 digits, and `PACK`'s sum is that of the packed word. -/
theorem pixelWordIsItsChannels : Obligations.PixelWordIsItsChannels :=
  ⟨toNat_eq_channels, pack_toNat⟩

end Sys2Proof.Machine
end

section
/-! PROOFS. The saturation `CLAMP255` (R77), and the two gamma tables against their laws (R71, R74, R79).

The laws have rational exponents, 11/5 and 5/11. Both denominators are odd, and an odd power is strictly increasing on
all of `ℝ`, so "the integer `t` is at most the law at `i`" is an inequality between integers, which the kernel can
evaluate for every entry. -/

namespace Sys2Proof.Machine

/-- Settles O26: the three ranges of the clamp. -/
theorem clampSaturates : Obligations.ClampSaturates := by
  intro z
  split_ifs with hneg hbig
  · rw [clamp255_of_neg hneg]
    rfl
  · rw [clamp255_of_big hbig]
    rfl
  · exact toNat_clamp255 (not_lt.mp hneg) (not_lt.mp hbig)

/-! ### The laws and their comparison with an integer -/

/-- The forward law before its floor (R71). -/
noncomputable def fwdLaw (i : ℕ) : ℝ := 32767 * (0.992052 * ((i : ℝ) / 255) ^ (2.2 : ℝ) + 0.003974)

/-- The inverse law before its floor (R74). -/
noncomputable def invLaw (i : ℕ) : ℝ := 255 * ((i : ℝ) / 255) ^ (1 / 2.2 : ℝ)

/-- `t ≤ fwdLaw i` in integers: the law times `10^6` is `(32767 * 992052) * (i/255)^(11/5) + 32767 * 3974`, and the
comparison is raised to the power 5. -/
abbrev LeFwdLaw (t : ℤ) (i : ℕ) : Prop :=
  (t * 10 ^ 6 - 32767 * 3974) ^ 5 * 255 ^ 11 ≤ (32767 * 992052) ^ 5 * (i : ℤ) ^ 11

/-- `t ≤ invLaw i` in integers: `255 * (i/255)^(5/11)`, and the comparison is raised to the power 11. -/
abbrev LeInvLaw (t : ℤ) (i : ℕ) : Prop :=
  t ^ 11 * 255 ^ 5 ≤ 255 ^ 11 * (i : ℤ) ^ 5

theorem rpow_fwd_exponent_pow_five {x : ℝ} (hx : 0 ≤ x) : (x ^ (2.2 : ℝ)) ^ 5 = x ^ 11 := by
  rw [← Real.rpow_mul_natCast hx, ← Real.rpow_natCast]
  norm_num

theorem rpow_inv_exponent_pow_eleven {x : ℝ} (hx : 0 ≤ x) : (x ^ (1 / 2.2 : ℝ)) ^ 11 = x ^ 5 := by
  rw [← Real.rpow_mul_natCast hx, ← Real.rpow_natCast]
  norm_num

theorem le_fwdLaw_iff (t : ℤ) (i : ℕ) : (t : ℝ) ≤ fwdLaw i ↔ LeFwdLaw t i := by
  have hx : (0 : ℝ) ≤ (i : ℝ) / 255 := by positivity
  have odd_five : Odd 5 := by decide
  calc (t : ℝ) ≤ fwdLaw i
      ↔ (t : ℝ) * 10 ^ 6 - 32767 * 3974 ≤ 32767 * 992052 * ((i : ℝ) / 255) ^ (2.2 : ℝ) := by
        unfold fwdLaw
        constructor <;> intro <;> linarith
    _ ↔ ((t : ℝ) * 10 ^ 6 - 32767 * 3974) ^ 5 ≤ (32767 * 992052) ^ 5 * (i : ℝ) ^ 11 / 255 ^ 11 := by
        rw [← odd_five.pow_le_pow, mul_pow (32767 * 992052 : ℝ), rpow_fwd_exponent_pow_five hx, div_pow, mul_div_assoc]
    _ ↔ LeFwdLaw t i := by
        rw [le_div_iff₀ (by positivity)]
        exact_mod_cast Iff.rfl

theorem le_invLaw_iff (t : ℤ) (i : ℕ) : (t : ℝ) ≤ invLaw i ↔ LeInvLaw t i := by
  have hx : (0 : ℝ) ≤ (i : ℝ) / 255 := by positivity
  have odd_eleven : Odd 11 := by decide
  calc (t : ℝ) ≤ invLaw i
      ↔ (t : ℝ) ^ 11 ≤ 255 ^ 11 * (i : ℝ) ^ 5 / 255 ^ 5 := by
        rw [invLaw, ← odd_eleven.pow_le_pow, mul_pow, rpow_inv_exponent_pow_eleven hx, div_pow, mul_div_assoc]
    _ ↔ LeInvLaw t i := by
        rw [le_div_iff₀ (by positivity)]
        exact_mod_cast Iff.rfl

/-- A floor is found by comparing with two neighbouring integers. -/
theorem eq_floor_of_le_iff {r : ℝ} {P : ℤ → Prop} (hP : ∀ t : ℤ, (t : ℝ) ≤ r ↔ P t) {z : ℤ} (hz : P z ∧ ¬ P (z + 1)) :
    z = ⌊r⌋ := by
  obtain ⟨hle, hnext⟩ := hz
  have hlt : ⌊r⌋ < z + 1 := not_le.mp fun h => hnext ((hP _).mp (Int.le_floor.mp h))
  exact le_antisymm (Int.le_floor.mpr ((hP z).mpr hle)) (Int.lt_add_one_iff.mp hlt)

/-! ### The entries -/

/-- The integer form of the forward law holds at each of the 256 entries and at no successor of one. -/
theorem fwdReference_brackets_law : ∀ i : Fin 256,
    LeFwdLaw fwdReference[i].toNat i ∧ ¬ LeFwdLaw (fwdReference[i].toNat + 1) i := by
  decide +kernel

/-- The integer form of the inverse law holds at each of the 256 entries and at no successor of one. -/
theorem invReference_brackets_law : ∀ i : Fin 256,
    LeInvLaw invReference[i].toNat i ∧ ¬ LeInvLaw (invReference[i].toNat + 1) i := by
  decide +kernel

theorem fwdReference_eq_floor_law (i : Fin 256) : (fwdReference[i].toNat : ℤ) = ⌊fwdLaw i⌋ :=
  eq_floor_of_le_iff (fun t => le_fwdLaw_iff t i) (fwdReference_brackets_law i)

theorem invReference_eq_floor_law (i : Fin 256) : (invReference[i].toNat : ℤ) = ⌊invLaw i⌋ :=
  eq_floor_of_le_iff (fun t => le_invLaw_iff t i) (invReference_brackets_law i)

/-- Settles O39: each entry satisfies the integer form of its law and its successor does not. -/
theorem referenceTablesFollowTheirLaws : Obligations.ReferenceTablesFollowTheirLaws :=
  ⟨fwdReference_eq_floor_law, invReference_eq_floor_law⟩

/-! ### The tables increase with their laws -/

theorem fwdLaw_monotone : Monotone fwdLaw := by
  intro i j hij
  unfold fwdLaw
  gcongr

theorem invLaw_monotone : Monotone invLaw := by
  intro i j hij
  unfold invLaw
  gcongr

theorem fwdReference_le {i j : Fin 256} (hij : i ≤ j) : fwdReference[i].toNat ≤ fwdReference[j].toNat := by
  rw [← Int.ofNat_le, fwdReference_eq_floor_law, fwdReference_eq_floor_law]
  exact Int.floor_le_floor (fwdLaw_monotone hij)

theorem invReference_le {i j : Fin 256} (hij : i ≤ j) : invReference[i].toNat ≤ invReference[j].toNat := by
  rw [← Int.ofNat_le, invReference_eq_floor_law, invReference_eq_floor_law]
  exact Int.floor_le_floor (invLaw_monotone hij)

theorem fwdReference_zero : fwdReference[0] = 130 := by decide
theorem fwdReference_last : fwdReference[255] = 32636 := by decide +kernel

/-- Every forward entry lies between the two ends of the table. -/
theorem fwdReference_between_ends (i : Fin 256) : 130 ≤ fwdReference[i].toNat ∧ fwdReference[i].toNat ≤ 32636 := by
  have hlow : fwdReference[0].toNat ≤ fwdReference[i].toNat := fwdReference_le (Fin.zero_le i)
  have hhigh : fwdReference[i].toNat ≤ fwdReference[255].toNat := fwdReference_le (Fin.le_last i)
  rw [fwdReference_zero] at hlow
  rw [fwdReference_last] at hhigh
  exact ⟨hlow, hhigh⟩

theorem fwdReference_ne_extremes (i : Fin 256) : fwdReference[i] ≠ 0 ∧ fwdReference[i] ≠ 32767 := by
  obtain ⟨hlow, hhigh⟩ := fwdReference_between_ends i
  constructor
  · intro h
    exact absurd (h ▸ hlow) (by decide)
  · intro h
    exact absurd (h ▸ hhigh) (by decide)

/-- Channel 1 is linearized to 130, in bucket 1, and the bucket is encoded as 20. -/
theorem roundTrip_one :
    (invReference[(fwdReference[1].toNat / 128) % 256]'(Nat.mod_lt _ (by decide))).toNat ≠ 1 := by
  decide

/-- Settles O40: both tables are non-decreasing because their laws are, no forward entry is outside the two ends, and
channel 1 does not survive the round trip. -/
theorem referenceTableFacts : Obligations.ReferenceTableFacts :=
  ⟨fun i => fwdReference_le (Fin.castSucc_lt_succ (i := i)).le,
    fwdReference_zero, by decide, by decide, fwdReference_last, fwdReference_ne_extremes,
    fun i => invReference_le (Fin.castSucc_lt_succ (i := i)).le,
    by decide, by decide, by decide +kernel, 1, roundTrip_one⟩

end Sys2Proof.Machine
end

section
/-! PROOFS. The datapath of the red-green variant: the shift as a floor, the three integer matrices, and the properties
of the image (R82, R85, R86, R104). -/

namespace Sys2Proof.Machine

/-! ### The arithmetic shift (R82) -/

/-- An arithmetic shift is the floor of the exact quotient, for either sign. -/
theorem shiftRight_eq_floor (z : Int) (n : ℕ) : z >>> n = ⌊(z : ℚ) / ((2 ^ n : ℕ) : ℚ)⌋ := by
  rw [Int.shiftRight_eq_div_pow, Rat.floor_intCast_div_natCast]

theorem redBlind_eq_floor (k : Preset) (r g : Int) : redBlind k r g = ⌊(sumRed k r g : ℚ) / 4194304⌋ := by
  rw [redBlind, shiftRight_eq_floor]
  norm_num

theorem blueBlind_eq_floor (k : Preset) (r g b : Int) : blueBlind k r g b = ⌊(sumBlue k r g b : ℚ) / 4194304⌋ := by
  rw [blueBlind, shiftRight_eq_floor]
  norm_num

/-- Settles O28: each sum is shifted once, as a whole, and the shift is a floor. -/
theorem shiftIsFloorOfTheQuotient : Obligations.ShiftIsFloorOfTheQuotient :=
  ⟨fun k r g b => ⟨redBlind_eq_floor k r g, blueBlind_eq_floor k r g b⟩, by decide⟩

/-! ### The matrices (R85, R104) -/

/-- R85: the red-green variant is the matrix with the rows `(k1, k2, 0)` twice and `(k3, -k3, 32768)`. -/
theorem transformRedGreen_eq_matrix (ps : Params) (k : Preset) (p : Pixel) :
    transformRedGreen ps k p =
      matrixTransform ps (· >>> (22 : Nat)) ⟨k.k1.toInt, k.k2.toInt, 0⟩ ⟨k.k1.toInt, k.k2.toInt, 0⟩
        ⟨k.k3.toInt, -k.k3.toInt, 32768⟩ p := by
  have hred : rowSum ps ⟨k.k1.toInt, k.k2.toInt, 0⟩ p = sumRed k (linInt ps (redOf p)) (linInt ps (greenOf p)) := by
    rw [rowSum, sumRed]
    ring
  have hblue : rowSum ps ⟨k.k3.toInt, -k.k3.toInt, 32768⟩ p =
      sumBlue k (linInt ps (redOf p)) (linInt ps (greenOf p)) (linInt ps (blueOf p)) := by
    rw [rowSum, sumBlue]
    ring
  rw [matrixTransform, hred, hblue]
  rfl

/-- R104: the grayscale variant is the matrix whose rows are all `(2126, 7152, 722)`. -/
theorem transformGray_eq_matrix (ps : Params) (p : Pixel) :
    transformGray ps p =
      matrixTransform ps (· / 2560000) ⟨2126, 7152, 722⟩ ⟨2126, 7152, 722⟩ ⟨2126, 7152, 722⟩ p := rfl

/-- Settles O30: the matrix of R85 with the entries of the two presets, and that of R104. -/
theorem variantsAreIntegerMatrices : Obligations.VariantsAreIntegerMatrices := by
  intro ps p
  refine ⟨?deut, ?prot, transformGray_eq_matrix ps p⟩
  case deut =>
    rw [transformDeut, transformRedGreen_eq_matrix, presetDeut_k1_toInt, presetDeut_k2_toInt, presetDeut_k3_toInt,
      neg_neg]
  case prot =>
    rw [transformProt, transformRedGreen_eq_matrix, presetProt_k1_toInt, presetProt_k2_toInt, presetProt_k3_toInt]

/-! ### Words that differ only in alpha -/

/-- A field inside the low `n` bits can be read from those bits. -/
theorem extractLsb'_of_low_bits {w n start len : ℕ} (h : start + len ≤ n) (p : BitVec w) :
    (p.extractLsb' 0 n).extractLsb' start len = p.extractLsb' start len := by
  apply BitVec.eq_of_getLsbD_eq
  intro i hi
  have hn : start + i < n := by omega
  simp [hi, hn]

theorem redOf_eq_low24 (p : Pixel) : redOf p = (p.extractLsb' 0 24).extractLsb' 16 8 :=
  (extractLsb'_of_low_bits (by decide) p).symm

theorem greenOf_eq_low24 (p : Pixel) : greenOf p = (p.extractLsb' 0 24).extractLsb' 8 8 :=
  (extractLsb'_of_low_bits (by decide) p).symm

theorem blueOf_eq_low24 (p : Pixel) : blueOf p = (p.extractLsb' 0 24).extractLsb' 0 8 :=
  (extractLsb'_of_low_bits (by decide) p).symm

/-- Words equal in bits 23:0 have the same colour channels. -/
theorem channels_eq_of_low24_eq {p q : Pixel} (h : q.extractLsb' 0 24 = p.extractLsb' 0 24) :
    redOf q = redOf p ∧ greenOf q = greenOf p ∧ blueOf q = blueOf p := by
  simp only [redOf_eq_low24, greenOf_eq_low24, blueOf_eq_low24, h, and_self]

/-! ### The image of the red-green variant (R86) -/

theorem redOf_transformRedGreen (ps : Params) (k : Preset) (p : Pixel) :
    redOf (transformRedGreen ps k p) =
      enc ps (clamp255 (redBlind k (linInt ps (redOf p)) (linInt ps (greenOf p)))) := redOf_pack _ _ _

theorem greenOf_transformRedGreen (ps : Params) (k : Preset) (p : Pixel) :
    greenOf (transformRedGreen ps k p) =
      enc ps (clamp255 (redBlind k (linInt ps (redOf p)) (linInt ps (greenOf p)))) := greenOf_pack _ _ _

theorem blueOf_transformRedGreen (ps : Params) (k : Preset) (p : Pixel) :
    blueOf (transformRedGreen ps k p) =
      enc ps (clamp255 (blueBlind k (linInt ps (redOf p)) (linInt ps (greenOf p)) (linInt ps (blueOf p)))) :=
  blueOf_pack _ _ _

theorem alphaOf_transformRedGreen (ps : Params) (k : Preset) (p : Pixel) :
    alphaOf (transformRedGreen ps k p) = 255#8 := alphaOf_pack _ _ _

/-- Items 1 to 3 of R86 hold of the red-green transform with any coefficients. -/
theorem transformRedGreen_properties (ps : Params) (k : Preset) (p : Pixel) :
    redOf (transformRedGreen ps k p) = greenOf (transformRedGreen ps k p) ∧
    alphaOf (transformRedGreen ps k p) = 255#8 ∧
    ∀ q : Pixel, q.extractLsb' 0 24 = p.extractLsb' 0 24 → transformRedGreen ps k q = transformRedGreen ps k p := by
  refine ⟨?same, alphaOf_transformRedGreen ps k p, ?ignoresAlpha⟩
  case same => rw [redOf_transformRedGreen, greenOf_transformRedGreen]
  case ignoresAlpha =>
    intro q h
    obtain ⟨hr, hg, hb⟩ := channels_eq_of_low24_eq h
    simp only [transformRedGreen, hr, hg, hb]

/-- Equal red and green cancel in `S_b`, whatever k3 is. -/
theorem sumBlue_of_red_eq_green (k : Preset) (r b : Int) : sumBlue k r r b = 32768 * b := by
  rw [sumBlue]
  ring

/-- `32768 = 2^15`, so of the shift by 22 a shift by 7 remains. -/
theorem mul_32768_shiftRight (b : Int) : (32768 * b) >>> (22 : Nat) = b >>> (7 : Nat) := by
  simp only [Int.shiftRight_eq_div_pow]
  omega

theorem blueBlind_of_red_eq_green (k : Preset) (r b : Int) : blueBlind k r r b = b >>> (7 : Nat) := by
  rw [blueBlind, sumBlue_of_red_eq_green, mul_32768_shiftRight]

/-- Settles O32: the presets are instances of `T_RG`, and equal red and green cancel in the blue sum. -/
theorem redGreenProperties : Obligations.RedGreenProperties := by
  constructor
  · intro T hT ps p
    obtain rfl | rfl : T = transformDeut ∨ T = transformProt := by simpa using hT
    · exact transformRedGreen_properties ps presetDeut p
    · exact transformRedGreen_properties ps presetProt p
  · intro ps k p h
    rw [blueOf_transformRedGreen, h]
    exact ⟨sumBlue_of_red_eq_green k _ _, by rw [blueBlind_of_red_eq_green]⟩

end Sys2Proof.Machine
end

section
/-! PROOFS. The datapath of the tritan variant, its constants free: the three stages (R92 to R94), the output rule
(R95), the transform from pixel word to packed result (R90), and what is granted of its image (R97). -/

namespace Sys2Proof.Machine

/-! ### The stages (R92, R93, R94) -/

@[simp] theorem lms_x (t : TriParams) (v : Vec3) :
    (lms t v).x = (t.a.row1.x * v.x + t.a.row1.y * v.y + t.a.row1.z * v.z) / 32767 := rfl

@[simp] theorem lms_y (t : TriParams) (v : Vec3) :
    (lms t v).y = (t.a.row2.x * v.x + t.a.row2.y * v.y + t.a.row2.z * v.z) / 32767 := rfl

@[simp] theorem lms_z (t : TriParams) (v : Vec3) :
    (lms t v).z = (t.a.row3.x * v.x + t.a.row3.y * v.y + t.a.row3.z * v.z) / 32767 := rfl

@[simp] theorem rgb255_x (t : TriParams) (v : Vec3) :
    (rgb255 t v).x = 255 * (t.b.row1.x * v.x + t.b.row1.y * v.y + t.b.row1.z * v.z) := rfl

@[simp] theorem rgb255_y (t : TriParams) (v : Vec3) :
    (rgb255 t v).y = 255 * (t.b.row2.x * v.x + t.b.row2.y * v.y + t.b.row2.z * v.z) := rfl

@[simp] theorem rgb255_z (t : TriParams) (v : Vec3) :
    (rgb255 t v).z = 255 * (t.b.row3.x * v.x + t.b.row3.y * v.y + t.b.row3.z * v.z) := rfl

/-- Set 1 needs both halves of the test. -/
theorem substS_of_ratio_lt {t : TriParams} {l m : Rat} (hl : l ≠ 0) (h : m / l < t.t) :
    substS t l m = t.p1 * l + t.q1 * m := if_pos ⟨hl, h⟩

/-- Equality goes to set 2 (D15). -/
theorem substS_of_le_ratio {t : TriParams} {l m : Rat} (h : t.t ≤ m / l) :
    substS t l m = t.p2 * l + t.q2 * m := if_neg fun ⟨_, hlt⟩ => not_lt.mpr h hlt

/-- A missing ratio goes to set 2, whatever the sign of the threshold (D15). -/
theorem substS_of_l_eq_zero {t : TriParams} {l m : Rat} (hl : l = 0) :
    substS t l m = t.p2 * l + t.q2 * m := if_neg fun ⟨hne, _⟩ => hne hl

/-- Settles O36: the rows of the two matrices, and the three cases of the choice between the coefficient sets. -/
theorem tritanStages : Obligations.TritanStages := fun t _ _ _ _ _ =>
  ⟨lms_x t _, lms_y t _, lms_z t _, substS_of_ratio_lt, fun _ => substS_of_le_ratio, substS_of_l_eq_zero,
    rgb255_x t _, rgb255_y t _, rgb255_z t _⟩

/-! ### The output rule (R95) -/

theorem triOut_of_neg (ps : Params) {c : Rat} (h : c < 0) : triOut ps c = 0#8 := if_pos h

theorem triOut_of_big (ps : Params) {c : Rat} (h : 255 < c) : triOut ps c = 255#8 := by
  have h0 : ¬ c < 0 := by linarith
  rw [triOut, if_neg h0, if_pos h]

theorem floor_in_range {c : Rat} (h0 : 0 ≤ c) (h1 : c ≤ 255) : 0 ≤ ⌊c⌋ ∧ ⌊c⌋ ≤ 255 :=
  ⟨Int.floor_nonneg.mpr h0, by exact_mod_cast (Int.floor_le c).trans h1⟩

/-- Inside `0 .. 255` the output is clamp-then-look-up, and the clamp does not act. -/
theorem triOut_of_in_range (ps : Params) {c : Rat} (h0 : 0 ≤ c) (h1 : c ≤ 255) :
    triOut ps c = enc ps (clamp255 ⌊c⌋) := by
  obtain ⟨hf0, hf1⟩ := floor_in_range h0 h1
  rw [triOut, if_neg (not_lt.mpr h0), if_neg (not_lt.mpr h1), clamp255, if_neg (not_lt.mpr hf0),
    if_neg (not_lt.mpr hf1)]
  rfl

theorem clamp255_floor_of_neg {c : Rat} (h : c < 0) : clamp255 ⌊c⌋ = 0#8 :=
  clamp255_of_neg (Int.floor_lt.mpr (by exact_mod_cast h))

/-- The floor of a value above 255 can be 255 itself, which the clamp maps to 255 too. -/
theorem clamp255_floor_of_big {c : Rat} (h : 255 < c) : clamp255 ⌊c⌋ = 255#8 := by
  have hf : (255 : Int) ≤ ⌊c⌋ := Int.le_floor.mpr (by exact_mod_cast h.le)
  obtain heq | hlt := hf.eq_or_lt
  · rw [← heq]
    rfl
  · exact clamp255_of_big hlt

/-- Conflict C4: the bypass of `INV_LUT` is invisible exactly when the table keeps both ends. -/
theorem triOut_eq_clamp_then_enc_iff (ps : Params) :
    (∀ c : Rat, triOut ps c = enc ps (clamp255 ⌊c⌋)) ↔ enc ps 0#8 = 0#8 ∧ enc ps 255#8 = 255#8 := by
  constructor
  · intro h
    have below : (-1 : Rat) < 0 := by norm_num
    have above : (255 : Rat) < 256 := by norm_num
    constructor
    · calc enc ps 0#8 = enc ps (clamp255 ⌊(-1 : Rat)⌋) := by rw [clamp255_floor_of_neg below]
        _ = triOut ps (-1) := (h (-1)).symm
        _ = 0#8 := triOut_of_neg ps below
    · calc enc ps 255#8 = enc ps (clamp255 ⌊(256 : Rat)⌋) := by rw [clamp255_floor_of_big above]
        _ = triOut ps 256 := (h 256).symm
        _ = 255#8 := triOut_of_big ps above
  · rintro ⟨hzero, hlast⟩ c
    obtain hneg | h0 := lt_or_ge c 0
    · rw [triOut_of_neg ps hneg, clamp255_floor_of_neg hneg, hzero]
    obtain hbig | h1 := lt_or_ge 255 c
    · rw [triOut_of_big ps hbig, clamp255_floor_of_big hbig, hlast]
    · exact triOut_of_in_range ps h0 h1

/-- Settles O38: the three ranges of a component, and the two orders compared in each. -/
theorem tritanOutputRule : Obligations.TritanOutputRule := fun ps =>
  ⟨fun c => ⟨triOut_of_neg ps, triOut_of_big ps, fun h0 h1 =>
    have ⟨hf0, hf1⟩ := floor_in_range h0 h1
    ⟨clamp255 ⌊c⌋, toNat_clamp255 hf0 hf1, triOut_of_in_range ps h0 h1⟩⟩,
    triOut_eq_clamp_then_enc_iff ps⟩

/-! ### The whole transform (R90) and its image (R97) -/

/-- Of the cone responses only the first two enter the components. -/
theorem triComponents_eq (ps : Params) (p : Pixel) :
    triComponents ps p =
      rgb255 ps.tri
        { x := (lms ps.tri (linVec ps p)).x, y := (lms ps.tri (linVec ps p)).y,
          z := substS ps.tri (lms ps.tri (linVec ps p)).x (lms ps.tri (linVec ps p)).y } := rfl

/-- The transform is `PACK` of the outputs of the three components. -/
theorem transformTrit_eq (ps : Params) (p : Pixel) :
    transformTrit ps p =
      pack (triOut ps (triComponents ps p).x) (triOut ps (triComponents ps p).y)
        (triOut ps (triComponents ps p).z) := rfl

/-- Settles O37: the stages composed, from the linear column to `PACK`. -/
theorem tritanTransformWrittenOut : Obligations.TritanTransformWrittenOut := by
  intro ps p a b r g bl l m s ha hb hr hg hbl hl hm hs
  have hlin : linVec ps p = ⟨r, g, bl⟩ := by rw [linVec, hr, hg, hbl]
  have hL : (lms ps.tri (linVec ps p)).x = l := by rw [hlin, lms_x, hl, ha]
  have hM : (lms ps.tri (linVec ps p)).y = m := by rw [hlin, lms_y, hm, ha]
  have hS : substS ps.tri l m = s := by rw [substS, hs]
  have hrgb : triComponents ps p = rgb255 ps.tri ⟨l, m, s⟩ := by rw [triComponents_eq, hL, hM, hS]
  rw [transformTrit_eq, hrgb, rgb255_x, rgb255_y, rgb255_z, hb]

theorem alphaOf_transformTrit (ps : Params) (p : Pixel) : alphaOf (transformTrit ps p) = 255#8 := alphaOf_pack _ _ _

theorem channel_toNat_le (c : Channel) : c.toNat ≤ 255 := Nat.le_of_lt_succ c.isLt

/-- Words equal in bits 23:0 have the same linear column. -/
theorem linVec_eq_of_low24_eq (ps : Params) {p q : Pixel} (h : q.extractLsb' 0 24 = p.extractLsb' 0 24) :
    linVec ps q = linVec ps p := by
  obtain ⟨hr, hg, hb⟩ := channels_eq_of_low24_eq h
  rw [linVec, linVec, hr, hg, hb]

/-- The tritan transform sees a pixel through its linear column only. -/
theorem transformTrit_eq_of_linVec_eq {ps : Params} {p q : Pixel} (h : linVec ps q = linVec ps p) :
    transformTrit ps q = transformTrit ps p := by
  rw [transformTrit_eq, transformTrit_eq, triComponents_eq, triComponents_eq, h]

/-- Settles O35: `PACK` fixes alpha, a channel has 8 bits, and the input's alpha is not in the linear column. -/
theorem tritanProperties : Obligations.TritanProperties := fun ps p =>
  ⟨alphaOf_transformTrit ps p, ⟨channel_toNat_le _, channel_toNat_le _, channel_toNat_le _⟩,
    fun _ h => transformTrit_eq_of_linVec_eq (linVec_eq_of_low24_eq ps h)⟩

end Sys2Proof.Machine
end

section
/-! PROOFS. The grayscale variant: the image of the transform, and the luminance bucket on the gray axis (R103). -/

namespace Sys2Proof.Machine

/-! ### The image of the grayscale variant -/

/-- The one channel value of the grayscale image (R100). -/
def grayOutput (ps : Params) (p : Pixel) : Channel :=
  enc ps (clamp255 (grayBucket (linInt ps (redOf p)) (linInt ps (greenOf p)) (linInt ps (blueOf p))))

/-- The transform is `PACK` of one value in all three channels. -/
theorem transformGray_eq_pack (ps : Params) (p : Pixel) :
    transformGray ps p = pack (grayOutput ps p) (grayOutput ps p) (grayOutput ps p) := rfl

@[simp] theorem redOf_transformGray (ps : Params) (p : Pixel) : redOf (transformGray ps p) = grayOutput ps p :=
  redOf_pack _ _ _

@[simp] theorem greenOf_transformGray (ps : Params) (p : Pixel) : greenOf (transformGray ps p) = grayOutput ps p :=
  greenOf_pack _ _ _

@[simp] theorem blueOf_transformGray (ps : Params) (p : Pixel) : blueOf (transformGray ps p) = grayOutput ps p :=
  blueOf_pack _ _ _

@[simp] theorem alphaOf_transformGray (ps : Params) (p : Pixel) : alphaOf (transformGray ps p) = 255#8 :=
  alphaOf_pack _ _ _

/-- Words equal in bits 23:0 have the same gray value: it is a function of the colour channels. -/
theorem grayOutput_eq_of_low24_eq (ps : Params) {p q : Pixel} (h : q.extractLsb' 0 24 = p.extractLsb' 0 24) :
    grayOutput ps q = grayOutput ps p := by
  obtain ⟨hr, hg, hb⟩ := channels_eq_of_low24_eq h
  rw [grayOutput, grayOutput, hr, hg, hb]

theorem transformGray_eq_of_low24_eq (ps : Params) {p q : Pixel} (h : q.extractLsb' 0 24 = p.extractLsb' 0 24) :
    transformGray ps q = transformGray ps p := by
  rw [transformGray_eq_pack, transformGray_eq_pack, grayOutput_eq_of_low24_eq ps h]

/-! ### The gray axis -/

/-- The weights sum to 10000. -/
theorem sumGray_of_equal_channels (v : Int) : sumGray v v v = 10000 * v := by
  rw [sumGray]
  ring

/-- `2560000 = 10000 * 256`, so on the gray axis of the divisor a shift by 8 remains. -/
theorem grayBucket_of_equal_channels (v : Int) : grayBucket v v v = v >>> (8 : Nat) := by
  calc grayBucket v v v = 10000 * v / (10000 * 256) := by rw [grayBucket, sumGray_of_equal_channels]; rfl
    _ = v / 256 := Int.mul_ediv_mul_of_pos v 256 (by decide)
    _ = v >>> (8 : Nat) := (Int.shiftRight_eq_div_pow v 8).symm

/-- Settles O34: one gray value in all three channels, a function of the colour channels only; and on the gray axis
the weights sum to the part of the divisor that the shift leaves out. -/
theorem grayscaleProperties : Obligations.GrayscaleProperties := by
  intro ps p
  refine ⟨?redGreen, ?greenBlue, alphaOf_transformGray ps p, fun _ => transformGray_eq_of_low24_eq ps, ?grayAxis⟩
  case redGreen => rw [redOf_transformGray, greenOf_transformGray]
  case greenBlue => rw [greenOf_transformGray, blueOf_transformGray]
  case grayAxis =>
    intro c hr hg hb
    rw [hr, hg, hb]
    exact ⟨sumGray_of_equal_channels _, grayBucket_of_equal_channels _⟩

end Sys2Proof.Machine
end

section
/-! PROOFS. The pixel step of `spec/44_raster_pixel_pipe.md`: what one pixel operation does to the whole state (R107,
R108, R110), and that the word it writes is the transform of the word it takes (R109, R111). -/

namespace Sys2Proof.Machine

/-! ### The exact next state -/

/-- Both cases of the last pixel as one state. -/
theorem storePixel_of_busy {s : State} (hb : s.busy = true) (q : Pixel) :
    storePixel q s = { s with
      dst := memWrite s.dst s.pix (settledWord s.pix q s)
      pix := s.pix + 1#32
      line := (wordsAtHand s).tail
      busy := decide (s.pix + 1#32 ≠ s.n)
      done := decide (s.pix + 1#32 = s.n) || s.done } := by
  obtain ⟨hn, h⟩ | ⟨hn, h⟩ := storePixel_cases q s
  · simp [h, hn]
  · simp [h, hn, hb]

/-- In a frame whose source the host leaves alone, the word taken is the one in `SRC`. -/
theorem takenWord_of_none_taken {s : State} (hb : s.busy = true) (h : Inv s ∨ s.params.driver = .streaming)
    (ht : s.srcTaken = []) : takenWord s = memRead s.src s.pix := by
  obtain hi | hd := h
  · rw [takenWord_eq_pipeWord hi hb, pipeWord_of_none_taken ht]
  · simp [takenWord, wordsAtHand_streaming hd, ht]

theorem exec_pixNormal_of_busy {s : State} (hb : s.busy = true) (hp : s.pix < s.n) :
    exec .pixNormal s = .next (storePixel (takenWord s) s) := inFrame_inside copyPixel hb hp

theorem exec_filter_of_busy {op : Instr × (Params → Pixel → Pixel)} (h : op ∈ filterOperations) {s : State}
    (hb : s.busy = true) (hp : s.pix < s.n) :
    exec op.1 s = .next (filterPixel (op.2 s.params) s) := by
  rw [exec_filter h, inFrame_inside _ hb hp]

/-- Settles O18: the pixel step of mode normal is `storePixel` of the word taken. -/
theorem normalModeCopiesTheWord : Obligations.NormalModeCopiesTheWord := by
  rintro s hb hp p d rfl rfl
  refine ⟨?_, takenWord_of_none_taken hb, fun hk => settledWord_of_none_kept hk _ _⟩
  rw [exec_pixNormal_of_busy hb hp, storePixel_of_busy hb]

/-- Settles O19: the pixel step of a filter mode is `storePixel` of the cached or computed word, on the filled cache. -/
theorem filterModesWriteCachedOrComputed : Obligations.FilterModesWriteCachedOrComputed := by
  rintro op hop s hb hp p q d rfl rfl rfl
  refine ⟨?_, takenWord_of_none_taken hb, fun hk => settledWord_of_none_kept hk _ _⟩
  rw [exec_filter_of_busy hop hb hp, filterPixel, storePixel_of_busy (s := cacheFilled _ _ s) hb]
  rfl

/-! ### The word written is the transform of the word taken (R109) -/

/-- The pixel operation of a mode is the copy with the identity, or a filter operation with its transform (R112). -/
theorem decodePixel_cases {m : BitVec 3} {i : Instr} (h : decodePixel m = .ok i) :
    (m = 0#3 ∧ i = .pixNormal ∧ ∀ ps p, modeTransform ps m p = some p) ∨
      ∃ f, (i, f) ∈ filterOperations ∧ ∀ ps p, modeTransform ps m p = some (f ps p) := by
  obtain ⟨rfl, rfl⟩ | ⟨rfl, rfl⟩ | ⟨rfl, rfl⟩ | ⟨rfl, rfl⟩ | ⟨rfl, rfl⟩ := decodePixel_ok h
  · exact .inl ⟨rfl, rfl, modeTransform_zero⟩
  · exact .inr ⟨transformDeut, by simp [filterOperations], modeTransform_one⟩
  · exact .inr ⟨transformProt, by simp [filterOperations], modeTransform_two⟩
  · exact .inr ⟨transformTrit, by simp [filterOperations], modeTransform_three⟩
  · exact .inr ⟨transformGray, by simp [filterOperations], modeTransform_four⟩

/-- Under the cache clause of the invariant a hit writes what a miss would compute. -/
theorem filterResult_of_cacheRight {s : State} {t : Pixel → Pixel}
    (ht : ∀ p, modeTransform s.params s.mode p = some (t p))
    (hc : s.prevValid = true → modeTransform s.params s.mode s.prevIn = some s.prevOut) (p : Pixel) :
    filterResult t p s = t p := by
  unfold filterResult
  split
  · next hit =>
    obtain ⟨hv, rfl⟩ := hit
    exact Option.some.inj ((hc hv).symm.trans (ht _))
  · rfl

/-- `s` with another pair in the previous-pixel cache. -/
def withCache (v : Bool) (p q : Pixel) (s : State) : State := { s with prevValid := v, prevIn := p, prevOut := q }

/-- What a pixel step does, whatever the mode: it writes the transform of the word of `PIX`, from a state that differs
at most in the cache, and the pair there is right too. -/
theorem pixel_next {s t : State} {i : Instr} (hi : Inv s) (hb : s.busy = true) (hd : decodePixel s.mode = .ok i)
    (he : exec i s = .next t) :
    ∃ q v p o, modeTransform s.params s.mode (pipeWord s.pix s) = some q ∧
      (v = true → modeTransform s.params s.mode p = some o) ∧ t = storePixel q (withCache v p o s) := by
  have hp := hi.busyInside hb
  obtain ⟨-, rfl, hT⟩ | ⟨f, hf, hT⟩ := decodePixel_cases hd
  · rw [exec_pixNormal_of_busy hb hp, takenWord_eq_pipeWord hi hb] at he
    injection he with he
    exact ⟨pipeWord s.pix s, s.prevValid, s.prevIn, s.prevOut, hT _ _, hi.cacheRight hb, he.symm⟩
  · rw [exec_filter_of_busy hf hb hp, filterPixel, takenWord_eq_pipeWord hi hb,
      filterResult_of_cacheRight (hT _) (hi.cacheRight hb)] at he
    injection he with he
    exact ⟨f s.params (pipeWord s.pix s), true, pipeWord s.pix s, _, hT _ _, fun _ => hT _ _, he.symm⟩

/-! ### The alpha of the word written (R111) -/

theorem alphaOf_filter {op : Instr × (Params → Pixel → Pixel)} (h : op ∈ filterOperations) (ps : Params) (p : Pixel) :
    alphaOf (op.2 ps p) = 255#8 := by
  obtain rfl | rfl | rfl | rfl : op = (.pixDeut, transformDeut) ∨ op = (.pixProt, transformProt) ∨
      op = (.pixTrit, transformTrit) ∨ op = (.pixGray, transformGray) := by simpa [filterOperations] using h
  · exact alphaOf_transformRedGreen ps presetDeut p
  · exact alphaOf_transformRedGreen ps presetProt p
  · exact alphaOf_transformTrit ps p
  · exact alphaOf_transformGray ps p

/-- The transform of a mode other than normal is opaque. -/
theorem alphaOf_of_modeTransform {m : BitVec 3} {i : Instr} (hd : decodePixel m = .ok i) (hm : m ≠ 0#3) {ps : Params}
    {p q : Pixel} (h : modeTransform ps m p = some q) : alphaOf q = 255#8 := by
  obtain ⟨h0, -⟩ | ⟨f, hf, hT⟩ := decodePixel_cases hd
  · exact absurd h0 hm
  · obtain rfl : f ps p = q := Option.some.inj ((hT ps p).symm.trans h)
    exact alphaOf_filter hf ps p

/-- The destination word at `PIX` after a pixel step, as far as stores of the host into the frame leave it. -/
theorem memRead_dst_storePixel {s : State} (hw : Memory.wf s.dst = true) (q : Pixel) :
    memRead (storePixel q s).dst s.pix = settledWord s.pix q s := by
  rw [storePixel_dst, memRead_memWrite_same hw]

/-- Settles O22: the word written is the transform of a filter mode, hit or miss, and every such transform packs. -/
theorem filterModesWriteOpaqueWords : Obligations.FilterModesWriteOpaqueWords := by
  intro s t i hi hb hm hd he
  obtain ⟨q, v, p, o, hq, -, rfl⟩ := pixel_next hi hb hd he
  have hword : memRead (storePixel q (withCache v p o s)).dst s.pix = settledWord s.pix q s :=
    memRead_dst_storePixel (s := withCache v p o s) hi.dstCanonical q
  exact ⟨q, alphaOf_of_modeTransform hd hm hq, hword, fun hk => hword.trans (settledWord_of_none_kept hk _ _)⟩

end Sys2Proof.Machine
end

section
/-! PROOFS. Every step keeps `Inv` (R11 to R13, R40, R109, R113, R114): the line buffer and the cache in a pixel step,
the host's stores, the control writes, and the step as a whole. -/

namespace Sys2Proof.Machine

/-! ### States that differ only outside the registers -/

/-- Two states that differ at most in the error bits, the rasters, the host's fields and the model's own records. -/
def sameRegisters (s t : State) : Prop :=
  t = { s with
    errMode := t.errMode, errDim := t.errDim, src := t.src, dst := t.dst, hostq := t.hostq, turns := t.turns,
    reply := t.reply, dstBefore := t.dstBefore, srcTaken := t.srcTaken, dstKept := t.dstKept, freeIdx := t.freeIdx }

/-- A word that is the right one to have read at index `j`: the pipe takes it, or the record overrides it. -/
def rightWord (s : State) (j : Index) (w : Pixel) : Prop := overlay s.srcTaken j.toNat w = pipeWord j s

/-- A line buffer that ends below `m` stays right when the words below `m` do. -/
theorem lineHolds_transfer {s t : State} {m : Index} {ws : List Pixel} {i : Index}
    (hm : i.toNat + ws.length ≤ m.toNat) (h : ∀ j, j < m → ∀ w, rightWord s j w → rightWord t j w)
    (hl : lineHolds s i ws) : lineHolds t i ws := by
  induction ws generalizing i with
  | nil => trivial
  | cons w ws ih =>
    rw [List.length_cons] at hm
    obtain ⟨hw, hws⟩ := hl
    have hi : i < m := BitVec.lt_def.mpr (by omega)
    have hnext : (i + 1#32).toNat = i.toNat + 1 := BitVec.toNat_add_of_lt (by have := m.isLt; simp; omega)
    exact ⟨h i hi w hw, ih (by omega) hws⟩

/-- Which words are right depends on the source and on its record only. -/
theorem lineHolds_congr {s t : State} (hsrc : t.src = s.src) (hrec : t.srcTaken = s.srcTaken) {ws : List Pixel}
    {i : Index} (hl : lineHolds s i ws) : lineHolds t i ws := by
  induction ws generalizing i with
  | nil => trivial
  | cons w ws ih =>
    obtain ⟨hw, hws⟩ := hl
    refine ⟨?_, ih hws⟩
    rwa [pipeWord, hsrc, hrec]

/-- The line buffer holds no word from beyond the frame. -/
theorem line_inside {s : State} (hi : Inv s) (hb : s.busy = true) : s.pix.toNat + s.line.length ≤ s.n.toNat := by
  obtain ⟨-, -, hn⟩ := hi.frameShape hb
  have hl := hi.lineRight hb
  cases hd : s.params.driver with
  | streaming =>
    have hp := BitVec.lt_def.mp (hi.busyInside hb)
    simp only [hl.streaming hd, List.length_nil]
    omega
  | rowBuffered =>
    obtain ⟨-, row, hrow, hend⟩ := hl.rows hd
    rw [hend, hn, toNat_pixelCount, Nat.mul_comm s.srcW.toNat]
    exact Nat.mul_le_mul_right _ hrow

/-- The invariant speaks of the registers, of canonical rasters, and of the words that are right to have read. -/
theorem inv_of_sameRegisters {s t : State} (hi : Inv s) (ht : sameRegisters s t) (hsrc : Memory.wf t.src = true)
    (hdst : Memory.wf t.dst = true)
    (hw : s.busy = true → ∀ j, j < s.n → ∀ w, rightWord s j w → rightWord t j w) : Inv t := by
  have hline : s.busy = true → lineHolds t s.pix s.line := fun hb =>
    lineHolds_transfer (line_inside hi hb) (hw hb) (hi.lineRight hb).words
  rw [ht] at hline ⊢
  exact ⟨hi.modeLegal, hi.busyInside, hi.idleAtEnd, hi.notBoth, hi.frameShape, hi.cacheRight, hsrc, hdst, fun hb =>
    ⟨(hi.lineRight hb).streaming, (hi.lineRight hb).rows, hline hb⟩⟩

/-- Between frames little is left of the invariant. -/
theorem inv_of_idle {s : State} (hb : s.busy = false) (hm : s.mode.toNat ≤ 4) (hp : s.pix = s.n)
    (hsrc : Memory.wf s.src = true) (hdst : Memory.wf s.dst = true) : Inv s := by
  have no : ∀ {P : Prop}, s.busy = true → P := fun h => absurd (hb.symm.trans h) (by decide)
  exact ⟨hm, no, fun _ => hp, no, no, no, hsrc, hdst, no⟩

/-! ### The pixel step -/

theorem inv_withCache {s : State} (hi : Inv s) {v : Bool} {p o : Pixel}
    (h : v = true → modeTransform s.params s.mode p = some o) : Inv (withCache v p o s) := by
  have hline : s.busy = true → LineRight (withCache v p o s) := fun hb =>
    have ⟨hstream, hrows, hwords⟩ := hi.lineRight hb
    ⟨hstream, hrows, lineHolds_congr (s := s) (t := withCache v p o s) rfl rfl hwords⟩
  exact ⟨hi.modeLegal, hi.busyInside, hi.idleAtEnd, hi.notBoth, hi.frameShape, fun _ => h, hi.srcCanonical,
    hi.dstCanonical, hline⟩

/-- The words a driver has at hand in a pixel step are the right ones. -/
theorem lineHolds_wordsAtHand {s : State} (hi : Inv s) (hb : s.busy = true) : lineHolds s s.pix (wordsAtHand s) := by
  cases hd : s.params.driver with
  | streaming =>
    rw [wordsAtHand_streaming hd]
    exact ⟨rfl, trivial⟩
  | rowBuffered =>
    by_cases hl : s.line = []
    · rw [wordsAtHand_row_start hd hl]
      exact lineHolds_readRow s s.pix s.srcW.toNat
    · rw [wordsAtHand_in_row hd hl]
      exact (hi.lineRight hb).words

/-- The words at hand are at least one and at most a row, up to the end of a row. -/
theorem wordsAtHand_rows {s : State} (hi : Inv s) (hb : s.busy = true) (hd : s.params.driver = .rowBuffered) :
    0 < (wordsAtHand s).length ∧ (wordsAtHand s).length ≤ s.srcW.toNat ∧
      ∃ row, row ≤ s.srcH.toNat ∧ s.pix.toNat + (wordsAtHand s).length = row * s.srcW.toNat := by
  obtain ⟨hlt, row, hrow, hend⟩ := (hi.lineRight hb).rows hd
  by_cases hl : s.line = []
  · rw [wordsAtHand_row_start hd hl, readRow_length]
    rw [hl, List.length_nil] at hlt hend
    have hp := BitVec.lt_def.mp (hi.busyInside hb)
    rw [(hi.frameShape hb).2.2, toNat_pixelCount, Nat.mul_comm] at hp
    have hnext : row < s.srcH.toNat := Nat.lt_of_mul_lt_mul_right (a := s.srcW.toNat) (by omega)
    exact ⟨hlt, le_refl _, row + 1, hnext, by rw [Nat.succ_mul]; omega⟩
  · rw [wordsAtHand_in_row hd hl]
    exact ⟨List.length_pos_iff.mpr hl, hlt.le, row, hrow, hend⟩

theorem lineHolds_tail {s : State} {i : Index} {ws : List Pixel} (h : lineHolds s i ws) :
    lineHolds s (i + 1#32) ws.tail := by
  cases ws with
  | nil => trivial
  | cons w ws => exact h.2

/-- Below `N` the index does not wrap. -/
theorem toNat_succ_of_lt {i n : Index} (h : i < n) : (i + 1#32).toNat = i.toNat + 1 := by
  have := BitVec.lt_def.mp h
  have := n.isLt
  exact BitVec.toNat_add_of_lt (by simp; omega)

/-- The line buffer after a pixel step: the words at hand but the first. -/
theorem lineRight_storePixel {s : State} (hi : Inv s) (hb : s.busy = true) (q : Pixel) :
    LineRight (storePixel q s) := by
  have hnext : (storePixel q s).pix.toNat = s.pix.toNat + 1 := by
    rw [storePixel_pix, toNat_succ_of_lt (hi.busyInside hb)]
  constructor
  case streaming =>
    intro hd
    rw [storePixel_params] at hd
    rw [storePixel_line, wordsAtHand_streaming hd, List.tail_cons]
  case rows =>
    intro hd
    rw [storePixel_params] at hd
    obtain ⟨hpos, hle, row, hrow, hend⟩ := wordsAtHand_rows hi hb hd
    rw [hnext, storePixel_line, List.length_tail, storePixel_srcW, storePixel_srcH]
    exact ⟨by omega, row, hrow, by omega⟩
  case words =>
    rw [storePixel_line, storePixel_pix]
    exact lineHolds_congr (storePixel_src q s) (storePixel_srcTaken q s) (lineHolds_tail (lineHolds_wordsAtHand hi hb))

theorem inv_storePixel {s : State} (hi : Inv s) (hb : s.busy = true) (q : Pixel) : Inv (storePixel q s) := by
  have hdst : Memory.wf (storePixel q s).dst = true := by
    rw [storePixel_dst]
    exact wf_memWrite hi.dstCanonical _ _
  have hline := lineRight_storePixel hi hb q
  obtain ⟨hn, h⟩ | ⟨hn, h⟩ := storePixel_cases q s
  · rw [h] at hdst ⊢
    exact inv_of_idle rfl hi.modeLegal hn hi.srcCanonical hdst
  · rw [h] at hdst hline ⊢
    have hinside : s.pix + 1#32 < s.n := by
      have hlt := BitVec.lt_def.mp (hi.busyInside hb)
      have hnext := toNat_succ_of_lt (hi.busyInside hb)
      have hne : (s.pix + 1#32).toNat ≠ s.n.toNat := fun he => hn (BitVec.eq_of_toNat_eq he)
      exact BitVec.lt_def.mpr (by omega)
    exact ⟨hi.modeLegal, fun _ => hinside, fun h => absurd (hb.symm.trans h) (by decide), hi.notBoth, hi.frameShape,
      hi.cacheRight, hi.srcCanonical, hdst, fun _ => hline⟩

/-! ### The host's accesses -/

/-- Changes of the error bits, the host's fields and the frame's other records do not concern the invariant. -/
theorem inv_of_sameRasters {s t : State} (hi : Inv s) (ht : sameRegisters s t) (hsrc : t.src = s.src)
    (hdst : t.dst = s.dst) (hrec : t.srcTaken = s.srcTaken) : Inv t :=
  inv_of_sameRegisters hi ht (hsrc ▸ hi.srcCanonical) (hdst ▸ hi.dstCanonical) fun _ j _ w hw => by
    rwa [rightWord, pipeWord, hsrc, hrec]

theorem inv_answer {s : State} (hi : Inv s) (v : Word) : Inv (answer v s) := inv_of_sameRasters hi rfl rfl rfl rfl

theorem sameRegisters_settle (i : Index) (s : State) : sameRegisters s (settle i s) := by
  obtain ⟨-, h⟩ | ⟨-, h⟩ := settle_cases i s <;> rw [h] <;> rfl

theorem wf_dst_settle {s : State} (h : Memory.wf s.dst = true) (i : Index) : Memory.wf (settle i s).dst = true := by
  obtain ⟨-, hs⟩ | ⟨-, hs⟩ := settle_cases i s
  · rw [hs]
    exact wf_memWrite h i _
  · rwa [hs]

/-- Bringing `DST` in line at one word keeps the invariant. -/
theorem inv_settle {s : State} (hi : Inv s) (i : Index) : Inv (settle i s) :=
  inv_of_sameRegisters hi (sameRegisters_settle i s) (by rw [settle_src]; exact hi.srcCanonical)
    (wf_dst_settle hi.dstCanonical i) fun _ j _ w hw => by
      rwa [rightWord, settle_srcTaken, pipeWord_settle]

/-- Inside the frame a store to `SRC` records at its index the word that the pipe takes, so that every word read there
is right; at any other index nothing changes. -/
theorem rightWord_recorded {s t : State} {i : Index} {v w : Pixel} (hsrc : t.src = memWrite s.src i v)
    (hrec : t.srcTaken = (i.toNat, w) :: s.srcTaken) {j : Index} {u : Pixel} (h : rightWord s j u) :
    rightWord t j u := by
  rw [rightWord, pipeWord, hsrc, hrec]
  by_cases hj : j = i
  · rw [hj, overlay_cons_same, overlay_cons_same]
  · have hn : j.toNat ≠ i.toNat := fun hn => hj (BitVec.eq_of_toNat_eq hn)
    rw [overlay_cons_other _ _ _ hn, overlay_cons_other _ _ _ hn, memRead_memWrite_other _ _ hj]
    exact h

theorem inv_hostStoreSrc {s t : State} {i : Index} {v : Pixel} (hi : Inv s) (h : hostStoreSrc i v s = .next t) :
    Inv t := by
  have hsrc := wf_memWrite hi.srcCanonical i v
  obtain ⟨-, -, rfl⟩ | ⟨hout, rfl⟩ := hostStoreSrc_next h
  · obtain ⟨w, -, hd⟩ := disturbSrc_cases i v s
    rw [hd]
    refine inv_settle ?_ i
    exact inv_of_sameRegisters hi rfl hsrc hi.dstCanonical fun _ _ _ _ => rightWord_recorded rfl rfl
  · refine inv_of_sameRegisters hi rfl hsrc hi.dstCanonical fun hb j hj w hw => ?_
    have hji : j ≠ i := fun hji => hout ⟨hb, hji ▸ hj⟩
    rwa [rightWord, pipeWord, memRead_memWrite_other _ _ hji]

theorem inv_hostStoreDst {s t : State} {i : Index} {v : Pixel} (hi : Inv s) (h : hostStoreDst i v s = .next t) :
    Inv t := by
  have hdst := wf_memWrite hi.dstCanonical i v
  obtain ⟨-, -, rfl⟩ | ⟨-, rfl⟩ := hostStoreDst_next h
  · obtain ⟨kept, -, hd⟩ := disturbDst_cases i v s
    rw [hd]
    refine inv_settle ?_ i
    exact inv_of_sameRegisters hi rfl hi.srcCanonical hdst fun _ _ _ _ hw => hw
  · exact inv_of_sameRegisters hi rfl hi.srcCanonical hdst fun _ _ _ _ hw => hw

theorem inv_hostLoadSrc {s t : State} {i : Index} (hi : Inv s) (h : hostLoadSrc i s = .next t) : Inv t := by
  injection h with h
  exact h ▸ inv_answer hi _

theorem inv_hostLoadDst {s t : State} {i : Index} (hi : Inv s) (h : hostLoadDst i s = .next t) : Inv t := by
  obtain ⟨u, k, rfl⟩ := hostLoadDst_next h
  refine inv_answer ?_ u
  exact inv_of_sameRasters hi rfl rfl rfl rfl

/-! ### The control transactions -/

/-- A control read only answers. -/
theorem exec_decodeRead (a : BitVec 3) (s : State) : ∃ v, exec (decodeRead a) s = .next (answer v s) := by
  unfold decodeRead
  split_ifs <;> exact ⟨_, rfl⟩

theorem inv_selectMode {s : State} (hi : Inv s) (hb : s.busy = false) (d : Word) : Inv (selectMode d s) := by
  obtain ⟨-, h⟩ | ⟨hd, h⟩ := selectMode_cases d s
  · rw [h]
    exact inv_of_sameRasters hi rfl rfl rfl rfl
  · rw [h]
    refine inv_of_idle hb ?_ (hi.idleAtEnd hb) hi.srcCanonical hi.dstCanonical
    show (d.extractLsb' 0 3).toNat ≤ 4
    rw [BitVec.extractLsb'_toNat, Nat.shiftRight_zero]
    omega

/-- A frame starts with `PIX = 0`, an empty cache and an empty line buffer. -/
theorem inv_startFrame {s : State} (hi : Inv s) (hb : s.busy = false) (hw : s.srcW = s.dstW) (hh : s.srcH = s.dstH) :
    Inv (startFrame s) := by
  obtain ⟨-, h⟩ | ⟨hn, h⟩ := startFrame_cases s
  · rw [h]
    exact inv_of_idle hb hi.modeLegal rfl hi.srcCanonical hi.dstCanonical
  · have hpos : 0 < (pixelCount s.srcW s.srcH).toNat :=
      Nat.pos_of_ne_zero fun h0 => hn (BitVec.eq_of_toNat_eq h0)
    have hcol : 0 < s.srcW.toNat := Nat.pos_of_mul_pos_right (toNat_pixelCount s.srcW s.srcH ▸ hpos)
    have hline : LineRight (startFrame s) := by
      rw [h]
      exact ⟨fun _ => rfl, fun _ => ⟨hcol, 0, Nat.zero_le _, by simp⟩, trivial⟩
    rw [h] at hline ⊢
    exact ⟨hi.modeLegal, fun _ => BitVec.lt_def.mpr hpos, nofun, fun _ => rfl, fun _ => ⟨hw, hh, rfl⟩, fun _ => nofun,
      hi.srcCanonical, hi.dstCanonical, fun _ => hline⟩

theorem inv_transformCommand {s : State} (hi : Inv s) (hb : s.busy = false) : Inv (transformCommand s) := by
  obtain ⟨-, h⟩ | ⟨hw, hh, h⟩ := transformCommand_cases s
  · rw [h]
    exact inv_of_sameRasters hi rfl rfl rfl rfl
  · rw [h]
    exact inv_startFrame hi hb hw hh

/-- Between frames every operation keeps the invariant. -/
theorem inv_exec_idle {i : Instr} {s t : State} (hi : Inv s) (hb : s.busy = false) (h : exec i s = .next t) :
    Inv t := by
  obtain rfl | ⟨v, rfl⟩ | ⟨-, hwrite⟩ | ⟨hbusy, -⟩ := exec_next h
  · exact hi
  · exact inv_answer hi v
  · obtain ⟨m, -, rfl⟩ | ⟨a, b, -, rfl⟩ | ⟨a, b, -, rfl⟩ | ⟨x, -, rfl⟩ := hwrite
    · exact inv_selectMode hi hb m
    · exact inv_of_idle hb hi.modeLegal (hi.idleAtEnd hb) hi.srcCanonical hi.dstCanonical
    · exact inv_of_idle hb hi.modeLegal (hi.idleAtEnd hb) hi.srcCanonical hi.dstCanonical
    · exact inv_transformCommand hi hb
  · exact absurd (hb.symm.trans hbusy) (by decide)

/-! ### The step -/

theorem inv_resetStep {s : State} (hi : Inv s) : Inv (resetStep s) :=
  inv_of_idle rfl (Nat.zero_le 4) rfl hi.srcCanonical hi.dstCanonical

theorem inv_move {s t : State} (hi : Inv s) (h : Move s t) : Inv t := by
  have taken : ∀ rest, Inv { s with turns := s.turns.tail, hostq := rest } := fun _ =>
    inv_of_sameRasters hi rfl rfl rfl rfl
  have hturn : Inv (afterTurn s) := taken s.hostq
  cases h with
  | idle => exact hturn
  | write w rest _ _ hb he => exact inv_exec_idle (taken rest) hb he
  | read a rest _ _ he =>
    obtain ⟨v, hv⟩ := exec_decodeRead a { s with turns := s.turns.tail, hostq := rest }
    rw [hv] at he
    injection he with he
    exact he ▸ inv_answer (taken rest) v
  | loadSrc i rest _ _ he => exact inv_hostLoadSrc (taken rest) he
  | storeSrc i v rest _ _ he => exact inv_hostStoreSrc (taken rest) he
  | loadDst i rest _ _ he => exact inv_hostLoadDst (taken rest) he
  | storeDst i v rest _ _ he => exact inv_hostStoreDst (taken rest) he
  | pixel i _ hb hd he =>
    obtain ⟨q, v, p, o, -, hcache, rfl⟩ := pixel_next hturn hb hd he
    exact inv_storePixel (inv_withCache hturn hcache) hb q

/-- The invariant is inductive over the steps of the machine, whatever the host does. -/
theorem inv_step {s t : State} (hi : Inv s) (h : step s = .next t) : Inv t := by
  obtain ⟨ts, -, rfl⟩ | ⟨-, hm⟩ := step_next h
  · exact inv_resetStep (inv_of_sameRasters hi rfl rfl rfl rfl)
  · exact inv_move hi hm

end Sys2Proof.Machine
end

section
/-! PROOFS. A frame in which the host keeps its duties of R160 and R161 and nobody resets: what holds at every state of
it, and so at its end (R113, R115, R116, R117). -/

namespace Sys2Proof.Machine

/-! ### The rasters as the host leaves them -/

theorem srcAfter_append (ops ops' : List HostOp) (m : Memory) :
    srcAfter (ops ++ ops') m = srcAfter ops' (srcAfter ops m) := by
  induction ops generalizing m with
  | nil => rfl
  | cons op ops ih => cases op <;> exact ih _

theorem dstAfter_append (ops ops' : List HostOp) (m : Memory) :
    dstAfter (ops ++ ops') m = dstAfter ops' (dstAfter ops m) := by
  induction ops generalizing m with
  | nil => rfl
  | cons op ops ih => cases op <;> exact ih _

theorem wf_dstAfter (ops : List HostOp) {m : Memory} (hm : Memory.wf m = true) :
    Memory.wf (dstAfter ops m) = true := by
  induction ops generalizing m with
  | nil => exact hm
  | cons op ops ih =>
    cases op with
    | storeDst i v => exact ih (wf_memWrite hm i v)
    | _ => exact ih hm

/-- An index that a host which keeps its duties may store to is none of the frame's. -/
theorem ne_of_avoids {n i j : Index} (hi : i < n) (hj : decide (n ≤ j) = true) : i ≠ j :=
  fun h => BitVec.not_le.mpr (h ▸ hi) (of_decide_eq_true hj)

/-- A host that keeps its duties leaves the source words of the frame alone. -/
theorem memRead_srcAfter_of_avoids {n i : Index} (hi : i < n) {ops : List HostOp}
    (ha : ops.all (avoidsFrame n) = true) (m : Memory) : memRead (srcAfter ops m) i = memRead m i := by
  induction ops generalizing m with
  | nil => rfl
  | cons op ops ih =>
    obtain ⟨hop, hops⟩ : avoidsFrame n op = true ∧ ops.all (avoidsFrame n) = true := by simpa using ha
    cases op with
    | storeSrc j v =>
      exact (ih hops _).trans (memRead_memWrite_other m v (ne_of_avoids hi hop))
    | _ => exact ih hops m

/-- And the destination words of the frame. -/
theorem memRead_dstAfter_of_avoids {n i : Index} (hi : i < n) {ops : List HostOp}
    (ha : ops.all (avoidsFrame n) = true) (m : Memory) : memRead (dstAfter ops m) i = memRead m i := by
  induction ops generalizing m with
  | nil => rfl
  | cons op ops ih =>
    obtain ⟨hop, hops⟩ : avoidsFrame n op = true ∧ ops.all (avoidsFrame n) = true := by simpa using ha
    cases op with
    | storeDst j v =>
      exact (ih hops _).trans (memRead_memWrite_other m v (ne_of_avoids hi hop))
    | _ => exact ih hops m

/-- The host's operations take equal words to equal words. -/
theorem memRead_dstAfter_congr {i : Index} (ops : List HostOp) {m m' : Memory} (hm : Memory.wf m = true)
    (hm' : Memory.wf m' = true) (h : memRead m i = memRead m' i) :
    memRead (dstAfter ops m) i = memRead (dstAfter ops m') i := by
  induction ops generalizing m m' with
  | nil => exact h
  | cons op ops ih =>
    cases op with
    | storeDst j v =>
      refine ih (wf_memWrite hm j v) (wf_memWrite hm' j v) ?_
      rw [memRead_memWrite hm, memRead_memWrite hm', h]
    | _ => exact ih hm hm' h

/-! ### A step inside the frame -/

/-- `s` after the host has issued `ops` of its pending operations, outside the words of a running frame. -/
def hostMoved (ops rest : List HostOp) (reply : Option Word) (k : Nat) (s : State) : State :=
  { s with
    turns := s.turns.tail, hostq := rest, reply := reply, freeIdx := k,
    src := srcAfter ops s.src, dst := dstAfter ops s.dst }

/-- What a step can do in a frame that nobody disturbs: the host issues at most one operation, or the pipe takes a pixel
step. -/
inductive FrameMove (s : State) : State → Prop where
  | host (ops rest : List HostOp) (reply : Option Word) (k : Nat) (hq : s.hostq = ops ++ rest) :
      FrameMove s (hostMoved ops rest reply k s)
  | pixel (q : Pixel) (v : Bool) (p o : Pixel) (hT : modeTransform s.params s.mode (pipeWord s.pix s) = some q)
      (hcache : v = true → modeTransform s.params s.mode p = some o) :
      FrameMove s (storePixel q (withCache v p o (afterTurn s)))

theorem frameMove_of_move {s t : State} (hi : Inv s) (hb : s.busy = true)
    (ha : s.hostq.all (avoidsFrame s.n) = true) (h : Move s t) : FrameMove s t := by
  cases h with
  | idle => exact .host [] s.hostq s.reply s.freeIdx rfl
  | write w rest _ _ hidle => exact absurd (hb.symm.trans hidle) (by decide)
  | read a rest _ hq he =>
    obtain ⟨v, hv⟩ := exec_decodeRead a { s with turns := s.turns.tail, hostq := rest }
    rw [hv] at he
    injection he with he
    exact he ▸ .host [.ctrlRead a] rest (some v) s.freeIdx hq
  | loadSrc i rest _ hq he =>
    injection he with he
    exact he ▸ .host [.loadSrc i] rest (some (memRead s.src i)) s.freeIdx hq
  | storeSrc i v rest _ hq he =>
    obtain ⟨-, hin, -⟩ | ⟨-, rfl⟩ := hostStoreSrc_next he
    · have hout : s.n ≤ i := of_decide_eq_true (List.all_eq_true.mp ha (.storeSrc i v) (by simp [hq]))
      exact absurd hin (BitVec.not_lt.mpr hout)
    · exact .host [.storeSrc i v] rest s.reply s.freeIdx hq
  | loadDst i rest _ hq he =>
    obtain ⟨u, k, rfl⟩ := hostLoadDst_next he
    exact .host [.loadDst i] rest (some u) k hq
  | storeDst i v rest _ hq he =>
    obtain ⟨-, hin, -⟩ | ⟨-, rfl⟩ := hostStoreDst_next he
    · have hout : s.n ≤ i := of_decide_eq_true (List.all_eq_true.mp ha (.storeDst i v) (by simp [hq]))
      exact absurd hin (BitVec.not_lt.mpr hout)
    · exact .host [.storeDst i v] rest s.reply s.freeIdx hq
  | pixel i _ _ hd he =>
    have hturn : Inv (afterTurn s) := inv_of_sameRasters hi rfl rfl rfl rfl
    obtain ⟨q, v, p, o, hq, hcache, rfl⟩ := pixel_next hturn hb hd he
    exact .pixel q v p o hq hcache

theorem frameMove_of_step {s t : State} (hi : Inv s) (hb : s.busy = true) (hq : undisturbed s.n s)
    (h : step s = .next t) : FrameMove s t := by
  obtain ⟨ha, hreset⟩ := hq
  obtain ⟨ts, hts, -⟩ | ⟨-, hm⟩ := step_next h
  · exact absurd (by simp [hts]) hreset
  · exact frameMove_of_move hi hb ha hm

/-! ### What holds along the frame -/

/-- What a frame does not change (R115, R139, R159). -/
structure SameConfiguration (s t : State) : Prop where
  params : t.params = s.params
  mode : t.mode = s.mode
  srcW : t.srcW = s.srcW
  srcH : t.srcH = s.srcH
  dstW : t.dstW = s.dstW
  dstH : t.dstH = s.dstH
  errMode : t.errMode = s.errMode
  errDim : t.errDim = s.errDim

/-- The state `t` of a frame that has been started in `s`, under a host that keeps its duties and with no reset. -/
structure FrameRun (s t : State) : Prop where
  inv : Inv t
  quiet : undisturbed t.n t
  config : SameConfiguration s t
  count : t.n = pixelCount s.srcW s.srcH
  /-- The frame is either in progress or done: `DONE` comes in the step in which `BUSY` goes (R113). -/
  status : t.done = !t.busy
  /-- Without a store of the host into the frame the records of assumption 13 stay empty. -/
  records : t.busy = true → t.srcTaken = [] ∧ t.dstKept = []
  source : ∀ i : Index, i < t.n → memRead t.src i = memRead s.src i
  /-- The words behind the pipe are done (R12, R115). -/
  written : ∀ i : Index, i < t.pix → modeTransform s.params s.mode (memRead s.src i) = some (memRead t.dst i)
  /-- Beyond the frame the rasters are the host's. -/
  issued : ∃ ops, s.hostq = ops ++ t.hostq ∧ t.src = srcAfter ops s.src ∧
    ∀ i : Index, ¬ i < t.n → memRead t.dst i = memRead (dstAfter ops s.dst) i

/-- Below `N` the indices before `PIX + 1` are those before `PIX`, and `PIX`. -/
theorem lt_succ_cases {i p n : Index} (hp : p < n) (h : i < p + 1#32) : i < p ∨ i = p := by
  have hnext := toNat_succ_of_lt hp
  have hlt := BitVec.lt_def.mp h
  obtain hlt | heq : i.toNat < p.toNat ∨ i.toNat = p.toNat := by omega
  · exact .inl (BitVec.lt_def.mpr hlt)
  · exact .inr (BitVec.eq_of_toNat_eq heq)

/-- Later states inherit the configuration. -/
theorem SameConfiguration.trans {s t u : State} (h : SameConfiguration s t) (h' : SameConfiguration t u) :
    SameConfiguration s u :=
  ⟨h'.params.trans h.params, h'.mode.trans h.mode, h'.srcW.trans h.srcW, h'.srcH.trans h.srcH, h'.dstW.trans h.dstW,
    h'.dstH.trans h.dstH, h'.errMode.trans h.errMode, h'.errDim.trans h.errDim⟩

theorem sameConfiguration_hostMoved (ops rest : List HostOp) (reply : Option Word) (k : Nat) (s : State) :
    SameConfiguration s (hostMoved ops rest reply k s) := by
  constructor <;> rfl

theorem sameConfiguration_withCache (v : Bool) (p o : Pixel) (s : State) : SameConfiguration s (withCache v p o s) := by
  constructor <;> rfl

theorem sameConfiguration_startFrame (s : State) : SameConfiguration s (startFrame s) := by
  obtain ⟨-, h⟩ | ⟨-, h⟩ := startFrame_cases s <;> rw [h] <;> constructor <;> rfl

theorem sameConfiguration_storePixel (q : Pixel) (s : State) : SameConfiguration s (storePixel q s) := by
  constructor <;> simp

theorem frameRun_startFrame {s : State} (hi : Inv s) (hb : s.busy = false) (hw : s.srcW = s.dstW) (hh : s.srcH = s.dstH)
    (hq : undisturbed (pixelCount s.srcW s.srcH) s) : FrameRun s (startFrame s) := by
  have hinv := inv_startFrame hi hb hw hh
  have hconfig := sameConfiguration_startFrame s
  obtain ⟨hn, h⟩ | ⟨-, h⟩ := startFrame_cases s
  · rw [h] at hinv hconfig ⊢
    exact ⟨hinv, hn ▸ hq, hconfig, hn.symm, by rw [hb]; rfl,
      fun h => absurd (hb.symm.trans h) (by decide), fun _ _ => rfl, fun i h => absurd h BitVec.not_lt_zero,
      [], rfl, rfl, fun _ _ => rfl⟩
  · rw [h] at hinv hconfig ⊢
    exact ⟨hinv, hq, hconfig, rfl, rfl, fun _ => ⟨rfl, rfl⟩, fun _ _ => rfl,
      fun i h => absurd h BitVec.not_lt_zero, [], rfl, rfl, fun _ _ => rfl⟩

/-- The host's move: its pending operations get fewer, and its stores land beyond the frame. -/
theorem frameRun_host {s t : State} (hs : Inv s) (r : FrameRun s t) {ops rest : List HostOp}
    (hops : t.hostq = ops ++ rest) (reply : Option Word) (k : Nat)
    (hinv : Inv (hostMoved ops rest reply k t)) (hb : t.busy = true) : FrameRun s (hostMoved ops rest reply k t) := by
  obtain ⟨ha, hreset⟩ := r.quiet
  rw [hops, List.all_append, Bool.and_eq_true] at ha
  obtain ⟨hkept, hrest⟩ := ha
  constructor
  case inv => exact hinv
  case quiet => exact ⟨hrest, fun h => hreset (List.mem_of_mem_tail h)⟩
  case config => exact r.config.trans (sameConfiguration_hostMoved ops rest reply k t)
  case count => exact r.count
  case status => exact r.status
  case records => exact r.records
  case source => exact fun i hi => (memRead_srcAfter_of_avoids hi hkept t.src).trans (r.source i hi)
  case written =>
    intro i hi
    have hin : i < t.n := BitVec.lt_trans hi (r.inv.busyInside hb)
    rw [hostMoved, memRead_dstAfter_of_avoids hin hkept]
    exact r.written i hi
  case issued =>
    obtain ⟨before, hq, hsrc, hdst⟩ := r.issued
    refine ⟨before ++ ops, ?_, ?_, fun i hi => ?_⟩
    · rw [hq, hops, List.append_assoc]
      rfl
    · rw [hostMoved, hsrc, srcAfter_append]
    · rw [dstAfter_append]
      exact memRead_dstAfter_congr ops r.inv.dstCanonical (wf_dstAfter before hs.dstCanonical) (hdst i hi)

/-- A pair that is right for the mode may stand in the cache. -/
theorem frameRun_withCache {s t : State} (r : FrameRun s t) {v : Bool} {p o : Pixel}
    (h : v = true → modeTransform t.params t.mode p = some o) : FrameRun s (withCache v p o t) :=
  ⟨inv_withCache r.inv h, r.quiet, r.config.trans (sameConfiguration_withCache v p o t), r.count, r.status, r.records,
    r.source, r.written, r.issued⟩

/-- The pipe's move: one more word is the transform of its source word, and `DONE` takes the place of `BUSY` with the
last one. -/
theorem frameRun_storePixel {s t : State} (r : FrameRun s t) (hb : t.busy = true) {q : Pixel}
    (hT : modeTransform t.params t.mode (pipeWord t.pix t) = some q) : FrameRun s (storePixel q t) := by
  have hp := r.inv.busyInside hb
  obtain ⟨htaken, hkept⟩ := r.records hb
  have hq : modeTransform s.params s.mode (memRead s.src t.pix) = some q := by
    rw [← r.source _ hp, ← pipeWord_of_none_taken htaken, ← r.config.params, ← r.config.mode, hT]
  have hdst : (storePixel q t).dst = memWrite t.dst t.pix q := by
    rw [storePixel_dst, settledWord_of_none_kept hkept]
  constructor
  case inv => exact inv_storePixel r.inv hb q
  case quiet =>
    rw [undisturbed, storePixel_hostq, storePixel_n, storePixel_turns]
    exact r.quiet
  case config => exact r.config.trans (sameConfiguration_storePixel q t)
  case count =>
    rw [storePixel_n]
    exact r.count
  case status =>
    rw [storePixel_done, storePixel_busy]
    split
    · rfl
    · exact r.status
  case records =>
    rw [storePixel_srcTaken, storePixel_dstKept]
    exact fun _ => ⟨htaken, hkept⟩
  case source =>
    rw [storePixel_n, storePixel_src]
    exact r.source
  case written =>
    intro i hi
    rw [storePixel_pix] at hi
    rw [hdst, memRead_memWrite r.inv.dstCanonical]
    obtain hlt | rfl := lt_succ_cases hp hi
    · rw [if_neg (BitVec.ne_of_lt hlt)]
      exact r.written i hlt
    · rw [if_pos rfl, hq]
  case issued =>
    obtain ⟨ops, hops, hsrc, hword⟩ := r.issued
    rw [storePixel_n, storePixel_src, storePixel_hostq]
    refine ⟨ops, hops, hsrc, fun i hi => ?_⟩
    have hne : i ≠ t.pix := fun h => hi (h ▸ hp)
    rw [hdst, memRead_memWrite_other _ _ hne]
    exact hword i hi

theorem frameRun_step {s t u : State} (hs : Inv s) (r : FrameRun s t) (hb : t.busy = true) (h : step t = .next u) :
    FrameRun s u := by
  have hinv := inv_step r.inv h
  cases frameMove_of_step r.inv hb r.quiet h with
  | host ops rest reply k hops => exact frameRun_host hs r hops reply k hinv hb
  | pixel q v p o hT hcache =>
    have hturn : FrameRun s (afterTurn t) :=
      frameRun_host hs r (ops := []) rfl t.reply t.freeIdx (inv_of_sameRasters r.inv rfl rfl rfl rfl) hb
    exact frameRun_storePixel (frameRun_withCache hturn hcache) hb hT

/-! ### Runs up to the first `DONE` -/

theorem steps_succ_next {k : Nat} {s t : State} (h : steps (k + 1) s = .next t) :
    ∃ u, step s = .next u ∧ steps k u = .next t := by
  unfold steps at h
  split at h
  · next u hu => exact ⟨u, hu, h⟩
  · exact absurd h (by simp)
  · exact absurd h (by simp)

theorem steps_succ_of_step {k : Nat} {s u : State} (h : step s = .next u) : steps (k + 1) s = steps k u := by
  simp [steps, h]

/-- What every step from a state with `DONE = 0` keeps holds at the first state with `DONE = 1`. -/
theorem holds_at_first_done {P : State → Prop} (hstep : ∀ u v, P u → u.done = false → step u = .next v → P v)
    {k : Nat} {s t : State} (hk : steps k s = .next t)
    (hfirst : ∀ j, j < k → ∀ u, steps j s = .next u → u.done = false) (hs : P s) : P t := by
  induction k generalizing s with
  | zero =>
    injection hk with hk
    exact hk ▸ hs
  | succ k ih =>
    obtain ⟨u, hu, hk⟩ := steps_succ_next hk
    have hd : s.done = false := hfirst 0 (Nat.succ_pos k) s rfl
    refine ih hk (fun j hj v hv => ?_) (hstep s u hs hd hu)
    exact hfirst (j + 1) (Nat.succ_lt_succ hj) v ((steps_succ_of_step hu).trans hv)

theorem exec_transform_idle {s : State} (hb : s.busy = false) (hw : s.srcW = s.dstW) (hh : s.srcH = s.dstH)
    (x : BitVec 31) : exec (.transform x) s = .next (startFrame s) := by
  obtain ⟨hne, -⟩ | ⟨-, -, h⟩ := transformCommand_cases s
  · exact absurd hne (by simp [hw, hh])
  · exact (acceptWrite_idle transformCommand hb).trans (congrArg _ h)

/-- The frame at its first `DONE`. -/
theorem frameRun_of_steps {s s1 t : State} {x : BitVec 31} {k : Nat} (hi : Inv s) (hb : s.busy = false)
    (hw : s.srcW = s.dstW) (hh : s.srcH = s.dstH) (hq : undisturbed (pixelCount s.srcW s.srcH) s)
    (he : exec (.transform x) s = .next s1) (hk : steps k s1 = .next t)
    (hfirst : ∀ j, j < k → ∀ u, steps j s1 = .next u → u.done = false) : FrameRun s t := by
  rw [exec_transform_idle hb hw hh] at he
  injection he with he
  subst he
  refine holds_at_first_done (fun u v r hd => frameRun_step hi r ?_) hk hfirst (frameRun_startFrame hi hb hw hh hq)
  simpa [hd] using r.status

/-! ### The end of the frame -/

/-- `DONE` comes with the end of `BUSY`, and `BUSY` ends at `PIX = N`. -/
theorem FrameRun.at_done {s t : State} (r : FrameRun s t) (hd : t.done = true) : t.busy = false ∧ t.pix = t.n := by
  have hb : t.busy = false := by simpa [hd] using r.status
  exact ⟨hb, r.inv.idleAtEnd hb⟩

theorem FrameRun.toNat_n {s t : State} (r : FrameRun s t) : t.n.toNat = s.srcW.toNat * s.srcH.toNat := by
  rw [r.count, toNat_pixelCount]

/-- The indices of the frame are those below `W*H`. -/
theorem FrameRun.lt_n_iff {s t : State} (r : FrameRun s t) (i : Index) :
    i < t.n ↔ i.toNat < s.srcW.toNat * s.srcH.toNat := by
  rw [BitVec.lt_def, r.toNat_n]

/-- R115: at `DONE` every word of the frame is written. -/
theorem FrameRun.result {s t : State} (r : FrameRun s t) (hd : t.done = true) {i : Index}
    (hi : i.toNat < s.srcW.toNat * s.srcH.toNat) :
    modeTransform s.params s.mode (memRead s.src i) = some (memRead t.dst i) := by
  obtain ⟨-, hpix⟩ := r.at_done hd
  exact r.written i (hpix ▸ (r.lt_n_iff i).mpr hi)

/-- The words beyond the frame are as the host left them. -/
theorem FrameRun.beyond {s t : State} (r : FrameRun s t) :
    ∃ issued, s.hostq = issued ++ t.hostq ∧ t.src = srcAfter issued s.src ∧
      ∀ i : Index, s.srcW.toNat * s.srcH.toNat ≤ i.toNat → memRead t.dst i = memRead (dstAfter issued s.dst) i := by
  obtain ⟨issued, hq, hsrc, hdst⟩ := r.issued
  exact ⟨issued, hq, hsrc, fun i hi => hdst i fun h => Nat.not_lt.mpr hi ((r.lt_n_iff i).mp h)⟩

/-- Settles O47: `FrameRun` holds when the frame starts and is kept by every step up to the first `DONE`. -/
theorem resultOfAFrame : Obligations.ResultOfAFrame := by
  intro s x hi hb hw hh hq
  refine ⟨startFrame s, exec_transform_idle hb hw hh x, fun k t hk hd hfirst => ?_⟩
  have r : FrameRun s t := frameRun_of_steps hi hb hw hh hq (exec_transform_idle hb hw hh x) hk hfirst
  obtain ⟨hbusy, hpix⟩ := r.at_done hd
  have c := r.config
  exact ⟨fun i hlt => ⟨r.result hd hlt, r.source i ((r.lt_n_iff i).mpr hlt)⟩, r.beyond, c.mode, c.srcW, c.srcH, c.dstW,
    c.dstH, c.errMode, c.errDim, hbusy, hpix ▸ r.toNat_n⟩

/-! ### Two frames (R117) -/

/-- A transform is a function of the two tables and the tritan constants. -/
theorem modeTransform_congr {ps ps' : Params} (hf : ps'.fwd = ps.fwd) (hinv : ps'.inv = ps.inv) (ht : ps'.tri = ps.tri)
    (m : BitVec 3) (p : Pixel) : modeTransform ps' m p = modeTransform ps m p := by
  have hps : ps' = { ps with driver := ps'.driver } := by rw [← hf, ← hinv, ← ht]
  rw [hps, modeTransform_driver]

/-- Settles O52: both results are the same function of the source word. -/
theorem equalFramesGiveEqualResults : Obligations.EqualFramesGiveEqualResults := by
  intro s s' s1 s1' t t' x x' k k' hi hi' hb hb' hq hq' hw hh hw' hh' hmode hfwd hinv htri hsw hsh hsrc he he' hk hd
    hfirst hk' hd' hfirst' i hlt
  have r : FrameRun s t := frameRun_of_steps hi hb hw hh hq he hk hfirst
  have r' : FrameRun s' t' :=
    frameRun_of_steps hi' hb' (by rw [hsw, hw, hw']) (by rw [hsh, hh, hh']) hq' he' hk' hfirst'
  have hlt' : i.toNat < s'.srcW.toNat * s'.srcH.toNat := by rwa [hsw, hsh]
  apply Option.some.inj
  calc some (memRead t'.dst i)
      = modeTransform s'.params s'.mode (memRead s'.src i) := (r'.result hd' hlt').symm
    _ = modeTransform s.params s.mode (memRead s.src i) := by
        rw [modeTransform_congr hfwd hinv htri, hmode, hsrc i hlt]
    _ = some (memRead t.dst i) := r.result hd hlt

/-! ### The shape of the result (R116, R32) -/

/-- Only a `TRANSFORM` with equal dimensions sets `BUSY`. -/
theorem dims_eq_of_transform_busy {s t : State} {x : BitVec 31} (hb : s.busy = false)
    (he : exec (.transform x) s = .next t) (ht : t.busy = true) : s.srcW = s.dstW ∧ s.srcH = s.dstH := by
  obtain ⟨hbusy, -⟩ | ⟨-, rfl⟩ := acceptWrite_next he
  · exact absurd (hb.symm.trans hbusy) (by decide)
  obtain ⟨-, h⟩ | ⟨hw, hh, -⟩ := transformCommand_cases s
  · rw [h] at ht
    exact absurd (hb.symm.trans ht) (by decide)
  · exact ⟨hw, hh⟩

/-- The pixel in column `col` of row `row` lies in the raster. -/
theorem rasterIndex_lt {w h col row : Nat} (hc : col < w) (hr : row < h) : row * w + col < w * h := by
  calc row * w + col < (row + 1) * w := by rw [Nat.succ_mul]; omega
    _ ≤ h * w := Nat.mul_le_mul_right w hr
    _ = w * h := Nat.mul_comm h w

/-- Column and row are the remainder and the quotient of the index by the width. -/
theorem col_row_of_rasterIndex {w col row : Nat} (hc : col < w) :
    col = (row * w + col) % w ∧ row = (row * w + col) / w := by
  constructor
  · rw [Nat.mul_comm, Nat.mul_add_mod, Nat.mod_eq_of_lt hc]
  · rw [Nat.mul_comm, Nat.mul_add_div (Nat.zero_lt_of_lt hc), Nat.div_eq_of_lt hc, Nat.add_zero]

/-- Every index of the raster is one pixel's. -/
theorem existsUnique_pixel {w h i : Nat} (hi : i < w * h) :
    ∃ col row, col < w ∧ row < h ∧ i = row * w + col ∧
      ∀ col' row', col' < w → row' < h → i = row' * w + col' → col' = col ∧ row' = row := by
  have hw : 0 < w := Nat.pos_of_mul_pos_right (Nat.zero_lt_of_lt hi)
  refine ⟨i % w, i / w, Nat.mod_lt i hw, Nat.div_lt_of_lt_mul hi, ?_, fun col' row' hc _ he => ?_⟩
  · rw [Nat.mul_comm, Nat.div_add_mod]
  · rw [he]
    exact col_row_of_rasterIndex hc

/-- A number below `N` is an index. -/
theorem index_of_lt_n {n : Index} {a : Nat} (h : a < n.toNat) : ∃ i : Index, i.toNat = a :=
  ⟨BitVec.ofNat 32 a, by rw [BitVec.toNat_ofNat, Nat.mod_eq_of_lt (h.trans n.isLt)]⟩

/-- Settles O49: the shape of the frame that `FrameRun` describes, and the row-major bijection. -/
theorem finishedFrameKeepsTheShape : Obligations.FinishedFrameKeepsTheShape := by
  refine ⟨fun _ _ _ => dims_eq_of_transform_busy, ?_⟩
  rintro s s1 t x k w h hi hb hw hh hq rfl rfl he hk hd hfirst
  have r : FrameRun s t := frameRun_of_steps hi hb hw hh hq he hk hfirst
  refine ⟨by rw [r.config.dstW, hw], by rw [r.config.dstH, hh], r.toNat_n, fun col row hc hr => ?_,
    fun i hlt => existsUnique_pixel hlt, ?_⟩
  · obtain ⟨i, hi⟩ := index_of_lt_n (r.toNat_n ▸ rasterIndex_lt hc hr)
    have hlt : i.toNat < s.srcW.toNat * s.srcH.toNat := by
      rw [hi]
      exact rasterIndex_lt hc hr
    exact ⟨i, hi, hi, hlt, r.result hd hlt⟩
  · obtain ⟨issued, hq, -, hdst⟩ := r.beyond
    exact ⟨issued, hq, hdst⟩

end Sys2Proof.Machine
end

section
/-! PROOFS. The control writes of `spec/45_selector_control.md` sections 2 and 3: the exact next state of an accepted
write (R120 to R124, R127). -/

namespace Sys2Proof.Machine

/-! ### Writes without effect (R124, R127) -/

/-- Accepted or waiting, a write without effect leaves the state. -/
theorem acceptWrite_id (s : State) : acceptWrite id s = .next s := by
  cases hb : s.busy with
  | false => exact acceptWrite_idle id hb
  | true => exact acceptWrite_busy id hb

/-- Settles O11: both operations are the write without effect. -/
theorem ignoredWritesChangeNothing : Obligations.IgnoredWritesChangeNothing :=
  fun s _ _ _ => ⟨acceptWrite_id s, acceptWrite_id s⟩

/-! ### `SELECT_MODE` (R120) -/

/-- Settles O8: the two cases of the whole word. -/
theorem selectModeSetsModeOrRaises : Obligations.SelectModeSetsModeOrRaises := by
  intro s d hb
  have hexec : exec (.selectMode d) s = .next (selectMode d s) := acceptWrite_idle _ hb
  obtain ⟨hd, h⟩ | ⟨hd, h⟩ := selectMode_cases d s
  · rw [hexec, h, if_neg (Nat.not_le.mpr hd)]
  · rw [hexec, h, if_pos hd]

/-! ### `SET_SRC_DIM` and `SET_DST_DIM` (R122, R123) -/

theorem decode_srcDim_write (d : Word) :
    decode (.cw (cwString 1#3 d)) = .ok (.setSrcDim (d.extractLsb' 16 16) (d.extractLsb' 0 16)) := by
  simp [decode, decodeWrite]

theorem decode_dstDim_write (d : Word) :
    decode (.cw (cwString 2#3 d)) = .ok (.setDstDim (d.extractLsb' 16 16) (d.extractLsb' 0 16)) := by
  simp [decode, decodeWrite]

/-- Settles O9: every word decodes, and the write is accepted. -/
theorem dimensionWritesStoreBothFields : Obligations.DimensionWritesStoreBothFields := fun _ d hb =>
  ⟨decode_srcDim_write d, decode_dstDim_write d, fun h w => acceptWrite_idle (setSrcDim h w) hb,
    fun h w => acceptWrite_idle (setDstDim h w) hb⟩

/-! ### `TRANSFORM` (R121) -/

theorem exec_transform_busy {s : State} (hb : s.busy = true) (x : BitVec 31) : exec (.transform x) s = .next s :=
  acceptWrite_busy transformCommand hb

theorem exec_transform_mismatch {s : State} (hb : s.busy = false) (hne : s.srcW ≠ s.dstW ∨ s.srcH ≠ s.dstH)
    (x : BitVec 31) : exec (.transform x) s = .next { s with errDim := true } := by
  obtain ⟨-, h⟩ | ⟨hw, hh, -⟩ := transformCommand_cases s
  · exact (acceptWrite_idle transformCommand hb).trans (congrArg _ h)
  · exact absurd hne (by simp [hw, hh])

/-- Settles O10: `N` is `pixelCount`, and the cases of `startFrame` are those of `N = 0`. -/
theorem transformStartsAFrameOrRaises : Obligations.TransformStartsAFrameOrRaises := by
  refine fun s x => ⟨fun hb => exec_transform_busy hb x, fun hb => ⟨fun hne => exec_transform_mismatch hb hne x,
    fun hw hh => ⟨pixelCount s.srcW s.srcH, s.dst, [], [], [], toNat_pixelCount _ _, ?_⟩⟩⟩
  rw [exec_transform_idle hb hw hh]
  obtain ⟨hn, h⟩ | ⟨hn, h⟩ := startFrame_cases s
  · rw [h, if_pos hn, hn]
  · rw [h, if_neg hn]

end Sys2Proof.Machine
end

section
/-! PROOFS. The control reads of `spec/45_selector_control.md` section 4 (R125, R126), and that no operation changes a
readable register while `BUSY = 1`. -/

namespace Sys2Proof.Machine

/-! ### The registers while `BUSY = 1` -/

theorem sameConfiguration_answer (v : Word) (s : State) : SameConfiguration s (answer v s) := by
  constructor <;> rfl

theorem sameConfiguration_filterPixel (t : Pixel → Pixel) (s : State) : SameConfiguration s (filterPixel t s) :=
  (sameConfiguration_withCache true _ _ s).trans (sameConfiguration_storePixel _ _)

/-- While `BUSY = 1` a write waits, a read answers, and a pixel step moves the pipe on: none touches the configuration. -/
theorem sameConfiguration_exec_busy {i : Instr} {s t : State} (hb : s.busy = true) (h : exec i s = .next t) :
    SameConfiguration s t := by
  obtain rfl | ⟨v, rfl⟩ | ⟨hidle, -⟩ | ⟨-, -, ⟨-, rfl⟩ | ⟨f, -, rfl⟩⟩ := exec_next h
  · constructor <;> rfl
  · exact sameConfiguration_answer v s
  · exact absurd (hidle.symm.trans hb) (by decide)
  · exact sameConfiguration_storePixel (takenWord s) s
  · exact sameConfiguration_filterPixel (f s.params) s

/-- Settles O13: each read is `answer` of its word, and the registers belong to the configuration. -/
theorem readsReturnTheirRegister : Obligations.ReadsReturnTheirRegister := by
  refine ⟨fun s => ⟨rfl, rfl, rfl, rfl, rfl, fun _ => rfl⟩, fun s t i hb h => ?_⟩
  have hc : SameConfiguration s t := sameConfiguration_exec_busy hb h
  exact ⟨hc.mode, hc.srcW, hc.srcH, hc.dstW, hc.dstH⟩

/-! ### `RD_STATUS` (R126) -/

/-- A concatenation as a number: the low part has `m` bits. -/
theorem toNat_append_eq_add {n m : Nat} (x : BitVec n) (y : BitVec m) :
    (x ++ y).toNat = 2 ^ m * x.toNat + y.toNat := by
  rw [BitVec.toNat_append, ← Nat.shiftLeft_add_eq_or_of_lt y.isLt, Nat.shiftLeft_eq, Nat.mul_comm]

/-- The flags by the weights of their bits 0, 1, 8 and 9. -/
theorem toNat_statusWord (s : State) : (statusWord s).toNat =
    s.busy.toNat + 2 * s.done.toNat + 256 * s.errMode.toNat + 512 * s.errDim.toNat := by
  simp only [statusWord, flagBit, toNat_append_eq_add, BitVec.toNat_ofBool, BitVec.toNat_ofNat]
  omega

/-- Settles O14: the word is `statusWord`, and `Inv` has the two flags exclusive. -/
theorem statusReadsTheFlags : Obligations.StatusReadsTheFlags := by
  refine fun s => ⟨⟨statusWord s, rfl, toNat_statusWord s⟩, fun hi ⟨hb, hd⟩ => ?_⟩
  exact absurd ((hi.notBoth hb).symm.trans hd) (by decide)

end Sys2Proof.Machine
end

section
/-! PROOFS. The exceptions of `spec/60_exceptions.md`: which operations raise one, and what raising does (R135 to R138). -/

namespace Sys2Proof.Machine

/-! ### Who raises (R135 to R137) -/

/-- An operation keeps both error bits, or it is an accepted control write that raises: `SELECT_MODE` or `TRANSFORM`. -/
theorem exec_raise_cases {i : Instr} {s t : State} (h : exec i s = .next t) :
    (t.errMode = s.errMode ∧ t.errDim = s.errDim) ∨
      (s.busy = false ∧ (∃ d, i = .selectMode d ∧ 4 < d.toNat) ∧ t = raise .invalidMode s) ∨
      (s.busy = false ∧ (∃ x, i = .transform x) ∧ (s.srcW ≠ s.dstW ∨ s.srcH ≠ s.dstH) ∧
        t = raise .dimensionMismatch s) := by
  cases hb : s.busy with
  | true =>
    have hc : SameConfiguration s t := sameConfiguration_exec_busy hb h
    exact .inl ⟨hc.errMode, hc.errDim⟩
  | false =>
    obtain rfl | ⟨v, rfl⟩ | ⟨-, hwrite⟩ | ⟨hbusy, -⟩ := exec_next h
    · exact .inl ⟨rfl, rfl⟩
    · exact .inl ⟨rfl, rfl⟩
    · obtain ⟨d, hi, rfl⟩ | ⟨a, b, -, rfl⟩ | ⟨a, b, -, rfl⟩ | ⟨x, hi, rfl⟩ := hwrite
      · obtain ⟨hd, heq⟩ | ⟨-, heq⟩ := selectMode_cases d s
        · exact .inr (.inl ⟨rfl, ⟨d, hi, hd⟩, heq⟩)
        · exact .inl (by simp [heq])
      · exact .inl ⟨rfl, rfl⟩
      · exact .inl ⟨rfl, rfl⟩
      · obtain ⟨hne, heq⟩ | ⟨-, -, heq⟩ := transformCommand_cases s
        · exact .inr (.inr ⟨rfl, ⟨x, hi⟩, hne, heq⟩)
        · have hc : SameConfiguration s (startFrame s) := sameConfiguration_startFrame s
          exact .inl (by rw [heq]; exact ⟨hc.errMode, hc.errDim⟩)
    · exact absurd (hb.symm.trans hbusy) (by decide)

/-! ### Raising always sets the bit (R138) -/

theorem exec_selectMode_invalid {s : State} {d : Word} (hb : s.busy = false) (hd : 4 < d.toNat) :
    exec (.selectMode d) s = .next { s with errMode := true } := by
  rw [selectModeSetsModeOrRaises s d hb, if_neg (Nat.not_le.mpr hd)]

/-- Settles O15: each raise changes its own bit only, and the two operations that raise always do. -/
theorem onlyTwoOperationsRaise : Obligations.OnlyTwoOperationsRaise := by
  refine ⟨fun s t i h => ?_, fun _ _ => exec_selectMode_invalid, fun _ x hb hne => exec_transform_mismatch hb hne x⟩
  obtain ⟨hm, hd⟩ | ⟨hb, hi, rfl⟩ | ⟨hb, hi, hne, rfl⟩ := exec_raise_cases h
  · exact ⟨fun c => absurd hm c, fun c => absurd hd c⟩
  · exact ⟨fun _ => ⟨rfl, hb, hi⟩, fun c => absurd (raise_invalidMode_errDim s) c⟩
  · exact ⟨fun c => absurd (raise_dimensionMismatch_errMode s) c, fun _ => ⟨rfl, hb, hne, hi⟩⟩

end Sys2Proof.Machine
end

section
/-! PROOFS. The three formats of R55 and R56: the decoder and the encoder are inverse to each other, only reserved `PX`
codes are rejected (R57), and the lines of a host program stand for operations of the table (R59, R60). -/

namespace Sys2Proof

/-! ### The decoder on each kind of bit string -/

theorem decodeWrite_mode (d : Word) : decodeWrite (cwString 0#3 d) = .selectMode d := by simp [decodeWrite]

theorem decodeWrite_srcDim (d : Word) :
    decodeWrite (cwString 1#3 d) = .setSrcDim (d.extractLsb' 16 16) (d.extractLsb' 0 16) := by simp [decodeWrite]

theorem decodeWrite_dstDim (d : Word) :
    decodeWrite (cwString 2#3 d) = .setDstDim (d.extractLsb' 16 16) (d.extractLsb' 0 16) := by simp [decodeWrite]

/-- The command register has two rows, told apart by bit 0 (R56). -/
theorem decodeWrite_command (x : BitVec 31) (b : BitVec 1) :
    decodeWrite (cwString 3#3 (x ++ b)) = if b = 1#1 then .transform x else .ctrlNop x := by simp [decodeWrite]

/-- A register index that is none of the four writable ones is at least 4. -/
theorem index_cases (a : BitVec 3) : a = 0#3 ∨ a = 1#3 ∨ a = 2#3 ∨ a = 3#3 ∨ 4 ≤ a.toNat := by
  revert a
  decide

theorem decodeWrite_ignored {a : BitVec 3} (ha : 4 ≤ a.toNat) (d : Word) :
    decodeWrite (cwString a d) = .wrIgnored a d := by
  have ne : ∀ {k : BitVec 3}, k.toNat < 4 → a ≠ k := fun hk h => absurd (h ▸ ha) (Nat.not_le.mpr hk)
  simp [decodeWrite, ne (k := 0#3) (by decide), ne (k := 1#3) (by decide), ne (k := 2#3) (by decide),
    ne (k := 3#3) (by decide)]

theorem bit_cases : ∀ b : BitVec 1, b = 1#1 ∨ b = 0#1 := by decide

theorem decodeRead_reserved : ∀ a : BitVec 3, 6 ≤ a.toNat → decodeRead a = .rdZeroRes67 a := by decide

/-- Settles O1: each row of the table, its operands read back from their fields. -/
theorem decodeOfEncodeIsTheOperation : Obligations.DecodeOfEncodeIsTheOperation := by
  intro i hi
  cases i with
  | selectMode m => exact congrArg _ (decodeWrite_mode m)
  | setSrcDim h w => simp [decode, encode, decodeWrite_srcDim]
  | setDstDim h w => simp [decode, encode, decodeWrite_dstDim]
  | transform x => exact congrArg _ (decodeWrite_command x 1#1)
  | ctrlNop x => exact congrArg _ (decodeWrite_command x 0#1)
  | wrIgnored a x => exact congrArg _ (decodeWrite_ignored (of_decide_eq_true hi) x)
  | rdZeroRes67 a => exact congrArg _ (decodeRead_reserved a (of_decide_eq_true hi))
  | _ => rfl

/-! ### The encoder on what was decoded -/

/-- A word is its high and its low part. -/
theorem extract_append_extract {n m : Nat} (d : BitVec (n + m)) : d.extractLsb' m n ++ d.extractLsb' 0 m = d := by
  rw [BitVec.extractLsb'_append_extractLsb'_eq_extractLsb' (Nat.zero_add m).symm, BitVec.extractLsb'_eq_self]

theorem encode_decodeWrite (a : BitVec 3) (d : Word) : encode (decodeWrite (cwString a d)) = .cw (cwString a d) ∧
    (decodeWrite (cwString a d)).wellFormed = true := by
  obtain rfl | rfl | rfl | rfl | ha := index_cases a
  · rw [decodeWrite_mode]
    exact ⟨rfl, rfl⟩
  · rw [decodeWrite_srcDim, encode, extract_append_extract (n := 16) (m := 16)]
    exact ⟨rfl, rfl⟩
  · rw [decodeWrite_dstDim, encode, extract_append_extract (n := 16) (m := 16)]
    exact ⟨rfl, rfl⟩
  · rw [← extract_append_extract (n := 31) (m := 1) d, decodeWrite_command]
    obtain h | h := bit_cases (d.extractLsb' 0 1) <;> rw [h] <;> exact ⟨rfl, rfl⟩
  · rw [decodeWrite_ignored ha]
    exact ⟨rfl, decide_eq_true ha⟩

theorem encode_decodeRead : ∀ a : BitVec 3, encode (decodeRead a) = .cr a ∧ (decodeRead a).wellFormed = true := by
  decide

/-- The code of a pixel operation is the value of `MODE` that selects it. -/
theorem encode_of_decodePixel {m : BitVec 3} {i : Instr} (h : decodePixel m = .ok i) :
    encode i = .px m ∧ i.wellFormed = true := by
  obtain ⟨rfl, rfl⟩ | ⟨rfl, rfl⟩ | ⟨rfl, rfl⟩ | ⟨rfl, rfl⟩ | ⟨rfl, rfl⟩ := Machine.decodePixel_ok h <;> exact ⟨rfl, rfl⟩

/-- Settles O2: one format after the other, a control write by its register index. -/
theorem encodeOfDecodeIsTheBitString : Obligations.EncodeOfDecodeIsTheBitString := by
  intro c i h
  cases c with
  | cw w =>
    injection h with h
    rw [← h, ← cwString_parts w]
    exact encode_decodeWrite _ _
  | cr a =>
    injection h with h
    exact h ▸ encode_decodeRead a
  | px m => exact encode_of_decodePixel h

/-! ### What is rejected (R57) -/

theorem isWrite_decodeWrite_cwString (a : BitVec 3) (d : Word) : (decodeWrite (cwString a d)).isWrite = true := by
  obtain rfl | rfl | rfl | rfl | ha := index_cases a
  · rw [decodeWrite_mode]; rfl
  · rw [decodeWrite_srcDim]; rfl
  · rw [decodeWrite_dstDim]; rfl
  · rw [← extract_append_extract (n := 31) (m := 1) d, decodeWrite_command]
    split <;> rfl
  · rw [decodeWrite_ignored ha]; rfl

theorem isWrite_decodeWrite (w : BitVec 35) : (decodeWrite w).isWrite = true :=
  cwString_parts w ▸ isWrite_decodeWrite_cwString _ _

theorem isWrite_decodeRead : ∀ a : BitVec 3, (decodeRead a).isWrite = false := by decide

theorem decodePixel_of_le {m : BitVec 3} (hm : m.toNat ≤ 4) : ∃ i, decodePixel m = .ok i := by
  obtain ⟨k, hk, rfl⟩ : ∃ k, k ≤ 4 ∧ m = BitVec.ofNat 3 k := ⟨m.toNat, hm, by simp⟩
  interval_cases k <;> exact ⟨_, rfl⟩

theorem decodePixel_reserved : ∀ m : BitVec 3, 4 < m.toNat → decodePixel m = .error (.reservedPixelCode m) := by
  decide

/-- Settles O3: the first two formats decode every string, and the third up to code 4. -/
theorem onlyReservedPixelCodesAreRejected : Obligations.OnlyReservedPixelCodesAreRejected :=
  ⟨fun w => ⟨_, rfl, isWrite_decodeWrite w⟩, fun a => ⟨_, rfl, isWrite_decodeRead a⟩,
    fun _ => decodePixel_of_le, decodePixel_reserved⟩

/-- Settles O4: each word is taken apart by `tableCode` and decoded. -/
theorem sampleWordsDecode : Obligations.SampleWordsDecode :=
  ⟨rfl, rfl, rfl, rfl, rfl, rfl, rfl, rfl, rfl⟩

end Sys2Proof

namespace Sys2Proof.Machine

/-! ### The lines of a host program (R59, R60) -/

theorem decode_modeCode (m : DeficiencyMode) : decode (.px (modeCode m)) = .ok (modeOperation m) := by
  cases m <;> rfl

/-- Every line but the reset line is one operation, offered in a turn of the host. -/
theorem line_of_ne_reset {l : HostLine} (h : l ≠ .reset) : lineTurns l = [.host] ∧ ∃ op, lineOps l = [op] := by
  cases l with
  | reset => exact absurd rfl h
  | _ => exact ⟨rfl, _, rfl⟩

/-- A transaction of either channel decodes to an operation whose encoding it is. -/
theorem decode_cr_encodes (a : BitVec 3) : ∃ i, decode (.cr a) = .ok i ∧ encode i = .cr a :=
  ⟨_, rfl, (encode_decodeRead a).1⟩

theorem decode_cw_encodes (a : BitVec 3) (d : Word) :
    ∃ i, decode (.cw (cwString a d)) = .ok i ∧ encode i = .cw (cwString a d) :=
  ⟨_, rfl, (encode_decodeWrite a d).1⟩

/-- Settles O57: each line is the transaction of its row. -/
theorem hostLinesStandForOperations : Obligations.HostLinesStandForOperations :=
  ⟨decode_modeCode,
    fun m => ⟨_, rfl, decodeOfEncodeIsTheOperation (.selectMode m) rfl⟩,
    fun w h => ⟨_, rfl, decodeOfEncodeIsTheOperation (.setSrcDim h w) rfl⟩,
    fun w h => ⟨_, rfl, decodeOfEncodeIsTheOperation (.setDstDim h w) rfl⟩,
    ⟨rfl, decodeOfEncodeIsTheOperation (.transform 0) rfl⟩,
    fun a => ⟨rfl, decode_cr_encodes a⟩,
    fun a d => ⟨rfl, decode_cw_encodes a d⟩,
    fun _ _ => rfl, fun _ _ => rfl, ⟨rfl, rfl⟩, fun _ => line_of_ne_reset, fun _ => rfl, rfl, fun _ => rfl,
    fun _ _ _ => rfl⟩

end Sys2Proof.Machine
end

section
/-! PROOFS. Who moves at a step and on what: the turns of the host and of the pipe (R5, R6, R107, R128), the transaction
that `withFetchWord` places (assumption 7), and the steps in which nothing happens (R128, R148). -/

namespace Sys2Proof.Machine

/-! ### The fetch in each kind of turn -/

theorem fetch_host {s : State} {ts : List Turn} (h : s.turns = .host :: ts) :
    fetch s = hostTurn { s with turns := ts } := by simp [fetch, h]

theorem fetch_pipe {s : State} {ts : List Turn} (h : s.turns = .pipe :: ts) :
    fetch s = pipeTurn { s with turns := ts } := by simp [fetch, h]

theorem fetch_reset {s : State} {ts : List Turn} (h : s.turns = .reset :: ts) :
    fetch s = .other (.next (resetStep { s with turns := ts })) := by simp [fetch, h]

theorem fetch_ready {s : State} (h : s.turns = []) (hr : hostReady s = true) : fetch s = hostTurn s := by
  simp [fetch, h, hr]

theorem fetch_not_ready {s : State} (h : s.turns = []) (hr : hostReady s = false) : fetch s = pipeTurn s := by
  simp [fetch, h, hr]

theorem hostTurn_nil {s : State} (h : s.hostq = []) : hostTurn s = .other (.next s) := by simp [hostTurn, h]

theorem hostTurn_waits {s : State} {op : HostOp} {rest : List HostOp} (h : s.hostq = op :: rest)
    (hw : mustWait op s = true) : hostTurn s = .other (.next s) := by simp [hostTurn, h, hw]

theorem hostTurn_moves {s : State} {op : HostOp} {rest : List HostOp} (h : s.hostq = op :: rest)
    (hw : mustWait op s = false) : hostTurn s = hostMove op { s with hostq := rest } := by simp [hostTurn, h, hw]

theorem pipeTurn_busy {s : State} (hb : s.busy = true) : pipeTurn s = .run (.px s.mode) s := by simp [pipeTurn, hb]

theorem pipeTurn_idle {s : State} (hb : s.busy = false) : pipeTurn s = .other (.next s) := by simp [pipeTurn, hb]

theorem hostReady_cons {s : State} {op : HostOp} {rest : List HostOp} (h : s.hostq = op :: rest) :
    hostReady s = !mustWait op s := by simp [hostReady, h]

theorem hostReady_nil {s : State} (h : s.hostq = []) : hostReady s = false := by simp [hostReady, h]

/-! ### From the fetch to the step -/

theorem step_of_run {s s' : State} {c : Code} {i : Instr} (h : fetch s = .run c s') (hd : decode c = .ok i) :
    step s = exec i s' := by simp [step, h, runCode, hd]

theorem step_of_other {s : State} {o : Outcome} (h : fetch s = .other o) : step s = o := by simp [step, h]

/-- A transaction that need not wait runs in the host's turn, and in the host's favour when no turn is left. -/
theorem step_host_transaction {s : State} {op : HostOp} {rest : List HostOp} {c : Code} {i : Instr}
    (hq : s.hostq = op :: rest) (hw : mustWait op s = false) (hm : ∀ u, hostMove op u = .run c u)
    (hd : decode c = .ok i) :
    (∀ ts, s.turns = .host :: ts → step s = exec i { s with turns := ts, hostq := rest }) ∧
      (s.turns = [] → step s = exec i { s with hostq := rest }) := by
  constructor
  · intro ts ht
    have hturn : hostTurn { s with turns := ts } = hostMove op { s with turns := ts, hostq := rest } :=
      hostTurn_moves hq (by cases op <;> exact hw)
    exact step_of_run ((fetch_host ht).trans (hturn.trans (hm _))) hd
  · intro ht
    have hready : hostReady s = true := by rw [hostReady_cons hq, hw]; rfl
    exact step_of_run ((fetch_ready ht hready).trans ((hostTurn_moves hq hw).trans (hm _))) hd

/-- Settles O5: a control write need not wait while `BUSY = 0`, a control read never. -/
theorem hostTurnRunsTheTransaction : Obligations.HostTurnRunsTheTransaction := fun _ _ =>
  ⟨fun _ _ hq hb hd => step_host_transaction hq hb (fun _ => rfl) hd,
    fun _ _ hq hd => step_host_transaction hq rfl (fun _ => rfl) hd⟩

/-- While `BUSY = 1` a host without operations, or with a control write first, is not ready. -/
theorem hostReady_of_held {s : State} (hb : s.busy = true)
    (h : s.hostq = [] ∨ ∃ w rest, s.hostq = .ctrlWrite w :: rest) : hostReady s = false := by
  obtain hq | ⟨w, rest, hq⟩ := h
  · exact hostReady_nil hq
  · rw [hostReady_cons hq, mustWait, hb]
    rfl

theorem step_pipe_reserved {s : State} {ts : List Turn} (hb : s.busy = true) (ht : s.turns = .pipe :: ts)
    (hm : 4 < s.mode.toNat) : step s = .refused (.reservedPixelCode s.mode) := by
  have hf : fetch s = .run (.px s.mode) { s with turns := ts } :=
    (fetch_pipe ht).trans (pipeTurn_busy (s := { s with turns := ts }) hb)
  simp [step, hf, runCode, decode, decodePixel_reserved s.mode hm]

/-- Settles O6: the pipe's turn runs the code in `MODE`. -/
theorem pipeTurnRunsThePixelOperation : Obligations.PipeTurnRunsThePixelOperation := by
  refine fun s hb => ⟨fun i hd => ⟨fun ts ht => ?_, fun ht hq => ?_⟩, fun ts ht => step_pipe_reserved hb ht⟩
  · exact step_of_run ((fetch_pipe ht).trans (pipeTurn_busy (s := { s with turns := ts }) hb)) hd
  · exact step_of_run ((fetch_not_ready ht (hostReady_of_held hb hq)).trans (pipeTurn_busy hb)) hd

/-! ### The placed transaction (assumption 7) -/

/-- A table word is a control write or a control read, never a `PX` code (assumption 8). -/
theorem tableCode_cases {nbits w : Nat} {c : Code} (h : tableCode nbits w = some c) :
    (∃ x, c = .cw x) ∨ ∃ a, c = .cr a := by
  unfold tableCode at h
  split at h <;> split at h <;> simp only [Option.some.injEq, reduceCtorEq] at h
  · exact .inr ⟨_, h.symm⟩
  · exact .inl ⟨_, h.symm⟩

theorem decodeTableWord_some {nbits w : Nat} {i : Instr} (h : decodeTableWord nbits w = some i) :
    ∃ c, tableCode nbits w = some c ∧ decode c = .ok i := by
  unfold decodeTableWord at h
  split at h
  · next c hc =>
    split at h
    · next j hj => exact ⟨c, hc, by rw [hj, Option.some.inj h]⟩
    · exact absurd h (by simp)
  · exact absurd h (by simp)

theorem withFetchWord_of_code {nbits w : Nat} {c : Code} (h : tableCode nbits w = some c) (s : State) :
    s.withFetchWord nbits w = withCode s c := by simp [State.withFetchWord, h]

/-- Settles O7: the placed transaction stands first in `hostq`, and the turn is the host's. -/
theorem placedWordIsTheNextOperation : Obligations.PlacedWordIsTheNextOperation := by
  intro s nbits w i h
  obtain ⟨c, hc, hd⟩ := decodeTableWord_some h
  rw [withFetchWord_of_code hc]
  obtain ⟨x, rfl⟩ | ⟨a, rfl⟩ := tableCode_cases hc
  · obtain rfl : decodeWrite x = i := by injection hd
    rw [isWrite_decodeWrite, Bool.not_true, Bool.and_false]
    exact (hostTurnRunsTheTransaction (withCode s (.cw x)) s.hostq).1 x _ rfl rfl hd |>.1 s.turns rfl
  · obtain rfl : decodeRead a = i := by injection hd
    rw [isWrite_decodeRead, Bool.not_false, Bool.and_true]
    exact (hostTurnRunsTheTransaction (withCode s (.cr a)) s.hostq).2 a _ rfl hd |>.1 s.turns rfl

/-! ### Steps in which nothing happens -/

theorem exec_write_busy {i : Instr} (hi : i.isWrite = true) {s : State} (hb : s.busy = true) : exec i s = .next s := by
  cases i with
  | selectMode => exact acceptWrite_busy _ hb
  | setSrcDim => exact acceptWrite_busy _ hb
  | setDstDim => exact acceptWrite_busy _ hb
  | transform => exact acceptWrite_busy _ hb
  | ctrlNop => exact acceptWrite_busy _ hb
  | wrIgnored => exact acceptWrite_busy _ hb
  | _ => exact absurd hi Bool.false_ne_true

/-- Settles O12: the write is not accepted, and the host's turn leaves it pending. -/
theorem controlWritesWaitWhileBusy : Obligations.ControlWritesWaitWhileBusy := fun s hb =>
  ⟨fun _ hi => exec_write_busy hi hb, fun _ _ ts hq ht =>
    step_of_other ((fetch_host ht).trans (hostTurn_waits (s := { s with turns := ts }) hq hb))⟩

/-- Settles O20: the two cases of `inFrame` besides the step itself. -/
theorem pixelOperationsOutsideAFrame : Obligations.PixelOperationsOutsideAFrame := by
  refine fun s => ⟨fun hb => ⟨inFrame_idle copyPixel hb, fun op hop => ?_⟩, fun hb hp =>
    ⟨inFrame_outside copyPixel hb hp, fun op hop => ?_⟩⟩
  · rw [exec_filter hop, inFrame_idle _ hb]
  · rw [exec_filter hop, inFrame_outside _ hb hp]

/-- Settles O55: with nothing pending and no frame, neither agent has anything to do. -/
theorem idleMachineKeepsItsState : Obligations.IdleMachineKeepsItsState := by
  intro s hb hq hr
  match ht : s.turns with
  | [] =>
    have hs : s = { s with turns := [] } := by rw [← ht]
    rw [step_of_other ((fetch_not_ready ht (hostReady_nil hq)).trans (pipeTurn_idle hb))]
    exact congrArg _ hs
  | .host :: ts => exact step_of_other ((fetch_host ht).trans (hostTurn_nil (s := { s with turns := ts }) hq))
  | .pipe :: ts => exact step_of_other ((fetch_pipe ht).trans (pipeTurn_idle (s := { s with turns := ts }) hb))
  | .reset :: ts => exact absurd (by rw [ht]; rfl) hr

end Sys2Proof.Machine
end

section
/-! PROOFS. What a step leaves unchanged: an operation stores only at `PIX` (R35, R37), a raster access of the host
touches no register, error bits stay and block nothing (R16, R139), configuration and tables are fixed (R19, R40, R105),
and the source is the host's (R30). -/

namespace Sys2Proof.Machine

/-! ### What an operation keeps -/

/-- What no control transaction changes: the parameters and both rasters. -/
structure SameOutside (s t : State) : Prop where
  params : t.params = s.params
  src : t.src = s.src
  dst : t.dst = s.dst

theorem SameOutside.refl (s : State) : SameOutside s s := ⟨rfl, rfl, rfl⟩

theorem sameOutside_selectMode (d : Word) (s : State) : SameOutside s (selectMode d s) := by
  obtain ⟨-, h⟩ | ⟨-, h⟩ := selectMode_cases d s <;> rw [h] <;> constructor <;> rfl

theorem sameOutside_transformCommand (s : State) : SameOutside s (transformCommand s) := by
  obtain ⟨-, h⟩ | ⟨-, -, h⟩ := transformCommand_cases s
  · rw [h]
    constructor <;> rfl
  · rw [h]
    obtain ⟨-, h⟩ | ⟨-, h⟩ := startFrame_cases s <;> rw [h] <;> constructor <;> rfl

/-- A pixel step stores one word at `PIX`; the pair it leaves in the cache is not told. -/
def PixelStep (s t : State) : Prop :=
  s.busy = true ∧ s.pix < s.n ∧ ∃ q v p o, t = storePixel q (withCache v p o s)

/-- An operation is a control transaction, or a pixel step. -/
theorem exec_keeps {i : Instr} {s t : State} (h : exec i s = .next t) :
    SameOutside s t ∨ (i.isWrite = false ∧ PixelStep s t) := by
  obtain rfl | ⟨v, rfl⟩ | ⟨-, hwrite⟩ | ⟨hb, hp, ⟨rfl, rfl⟩ | ⟨f, hf, rfl⟩⟩ := exec_next h
  · exact .inl (.refl _)
  · exact .inl ⟨rfl, rfl, rfl⟩
  · obtain ⟨d, -, rfl⟩ | ⟨a, b, -, rfl⟩ | ⟨a, b, -, rfl⟩ | ⟨x, -, rfl⟩ := hwrite
    · exact .inl (sameOutside_selectMode d s)
    · exact .inl ⟨rfl, rfl, rfl⟩
    · exact .inl ⟨rfl, rfl, rfl⟩
    · exact .inl (sameOutside_transformCommand s)
  · exact .inr ⟨rfl, hb, hp, _, s.prevValid, s.prevIn, s.prevOut, rfl⟩
  · have hwrite : ∀ op ∈ filterOperations, op.1.isWrite = false := by simp [filterOperations, Instr.isWrite]
    exact .inr ⟨hwrite _ hf, hb, hp, _, true, _, _, rfl⟩

/-- The fields other than `DST` after a pixel step, and `DST` itself. -/
theorem PixelStep.params {s t : State} (h : PixelStep s t) : t.params = s.params := by
  obtain ⟨-, -, q, v, p, o, rfl⟩ := h
  exact storePixel_params q _

theorem PixelStep.src {s t : State} (h : PixelStep s t) : t.src = s.src := by
  obtain ⟨-, -, q, v, p, o, rfl⟩ := h
  exact storePixel_src q _

theorem PixelStep.dst {s t : State} (h : PixelStep s t) : ∃ d, t.dst = memWrite s.dst s.pix d := by
  obtain ⟨-, -, q, v, p, o, rfl⟩ := h
  exact ⟨_, storePixel_dst q _⟩

theorem exec_params {i : Instr} {s t : State} (h : exec i s = .next t) : t.params = s.params := by
  obtain h | ⟨-, h⟩ := exec_keeps h
  · exact h.params
  · exact h.params

theorem exec_src {i : Instr} {s t : State} (h : exec i s = .next t) : t.src = s.src := by
  obtain h | ⟨-, h⟩ := exec_keeps h
  · exact h.src
  · exact h.src

/-- Settles O21: only a pixel step stores, and it is no control write. -/
theorem operationsStoreOnlyAtPix : Obligations.OperationsStoreOnlyAtPix := by
  intro s t i h
  refine ⟨exec_src h, ?_⟩
  obtain hk | ⟨hwrite, hk⟩ := exec_keeps h
  · exact ⟨fun j hj => absurd (by rw [hk.dst]) hj, fun _ => hk.dst, fun hw => hk.dst ▸ hw⟩
  · obtain ⟨d, hd⟩ := hk.dst
    obtain ⟨hb, hp, -⟩ := hk
    refine ⟨fun j hj => ⟨hb, ?_, hp⟩, fun hw => absurd (hwrite.symm.trans hw) (by decide), fun hw => ?_⟩
    · by_contra hne
      exact hj (by rw [hd, memRead_memWrite_other _ _ hne])
    · exact hd ▸ wf_memWrite hw _ _

/-- While `BUSY = 1` no operation changes `N`. -/
theorem exec_busy_n {i : Instr} {s t : State} (hb : s.busy = true) (h : exec i s = .next t) : t.n = s.n := by
  obtain rfl | ⟨v, rfl⟩ | ⟨hidle, -⟩ | ⟨-, -, ⟨-, rfl⟩ | ⟨f, -, rfl⟩⟩ := exec_next h
  · rfl
  · rfl
  · exact absurd (hidle.symm.trans hb) (by decide)
  · exact storePixel_n _ _
  · exact storePixel_n _ _

/-! ### What a raster access of the host keeps -/

/-- `t` is `s` after an access of the host: it reaches the rasters, the records of assumptions 13 and 14 and the answer,
and no register of CORE. -/
def byHost (s t : State) : Prop :=
  t = { s with
    src := t.src, dst := t.dst, reply := t.reply, dstBefore := t.dstBefore, srcTaken := t.srcTaken,
    dstKept := t.dstKept, freeIdx := t.freeIdx }

theorem byHost_answer (v : Word) (s : State) : byHost s (answer v s) := rfl

theorem byHost_settle {s t : State} (h : byHost s t) (i : Index) : byHost s (settle i t) := by
  obtain ⟨-, hs⟩ | ⟨-, hs⟩ := settle_cases i t
  · rw [hs, h]
    rfl
  · rwa [hs]

theorem byHost_hostLoadSrc {i : Index} {s t : State} (h : hostLoadSrc i s = .next t) : byHost s t := by
  injection h with h
  exact h ▸ byHost_answer _ s

theorem byHost_hostLoadDst {i : Index} {s t : State} (h : hostLoadDst i s = .next t) : byHost s t := by
  obtain ⟨u, k, rfl⟩ := hostLoadDst_next h
  rfl

theorem byHost_hostStoreSrc {i : Index} {v : Pixel} {s t : State} (h : hostStoreSrc i v s = .next t) :
    byHost s t := by
  obtain ⟨-, -, rfl⟩ | ⟨-, rfl⟩ := hostStoreSrc_next h
  · obtain ⟨w, -, hd⟩ := disturbSrc_cases i v s
    rw [hd]
    refine byHost_settle ?_ i
    rfl
  · rfl

theorem byHost_hostStoreDst {i : Index} {v : Pixel} {s t : State} (h : hostStoreDst i v s = .next t) :
    byHost s t := by
  obtain ⟨-, -, rfl⟩ | ⟨-, rfl⟩ := hostStoreDst_next h
  · obtain ⟨kept, -, hd⟩ := disturbDst_cases i v s
    rw [hd]
    refine byHost_settle ?_ i
    rfl
  · rfl

theorem byHost_decodeRead {a : BitVec 3} {s t : State} (h : exec (decodeRead a) s = .next t) : byHost s t := by
  obtain ⟨v, hv⟩ := exec_decodeRead a s
  injection hv.symm.trans h with h
  exact h ▸ byHost_answer v s

theorem byHost.sameConfiguration {s t : State} (h : byHost s t) : SameConfiguration s t := by
  rw [h]
  constructor <;> rfl

theorem byHost.n {s t : State} (h : byHost s t) : t.n = s.n := by rw [h]
theorem byHost.pix {s t : State} (h : byHost s t) : t.pix = s.pix := by rw [h]
theorem byHost.busy {s t : State} (h : byHost s t) : t.busy = s.busy := by rw [h]
theorem byHost.hostq {s t : State} (h : byHost s t) : t.hostq = s.hostq := by rw [h]
theorem byHost.turns {s t : State} (h : byHost s t) : t.turns = s.turns := by rw [h]

/-- The state from which the host's or the pipe's move of this step starts: the turn is used up, and `rest` is what the
host has still to do. -/
abbrev afterFetch (rest : List HostOp) (s : State) : State := { s with turns := s.turns.tail, hostq := rest }

/-- A step that is no reset is an access of the host or an operation, from the state without the turn and without at
most one pending operation. -/
theorem move_cases {s t : State} (h : Move s t) :
    ∃ rest, rest <:+ s.hostq ∧ (byHost (afterFetch rest s) t ∨ ∃ i, exec i (afterFetch rest s) = .next t) := by
  have taken : ∀ {op rest}, s.hostq = op :: rest → rest <:+ s.hostq := fun hq => hq ▸ List.suffix_cons _ _
  cases h with
  | idle => exact ⟨s.hostq, List.suffix_refl _, .inl rfl⟩
  | write w rest _ hq _ he => exact ⟨rest, taken hq, .inr ⟨_, he⟩⟩
  | read a rest _ hq he => exact ⟨rest, taken hq, .inr ⟨_, he⟩⟩
  | loadSrc i rest _ hq he => exact ⟨rest, taken hq, .inl (byHost_hostLoadSrc he)⟩
  | storeSrc i v rest _ hq he => exact ⟨rest, taken hq, .inl (byHost_hostStoreSrc he)⟩
  | loadDst i rest _ hq he => exact ⟨rest, taken hq, .inl (byHost_hostLoadDst he)⟩
  | storeDst i v rest _ hq he => exact ⟨rest, taken hq, .inl (byHost_hostStoreDst he)⟩
  | pixel i _ _ _ he => exact ⟨s.hostq, List.suffix_refl _, .inr ⟨i, he⟩⟩

/-! ### Error bits (R16, R139) -/

/-- An operation never clears an error bit: raising sets one, and nothing else writes them. -/
theorem exec_keeps_errors {i : Instr} {s t : State} (h : exec i s = .next t) :
    (s.errMode = true → t.errMode = true) ∧ (s.errDim = true → t.errDim = true) := by
  obtain ⟨hm, hd⟩ | ⟨-, -, rfl⟩ | ⟨-, -, -, rfl⟩ := exec_raise_cases h
  · exact ⟨fun he => hm.trans he, fun he => hd.trans he⟩
  · exact ⟨fun _ => rfl, id⟩
  · exact ⟨id, fun _ => rfl⟩

/-- A step with a reset turn is the reset step, any other is a move. -/
theorem step_next_cases {s t : State} (h : step s = .next t) :
    (s.turns.head? = some .reset ∧ ∃ ts, t = resetStep { s with turns := ts }) ∨
      (s.turns.head? ≠ some .reset ∧ Move s t) := by
  obtain ⟨ts, hts, ht⟩ | hm := step_next h
  · exact .inl ⟨by rw [hts]; rfl, ts, ht⟩
  · exact .inr hm

/-- Settles O16: no move clears an error bit, and the reset step clears both. -/
theorem errorBitsStayUntilReset : Obligations.ErrorBitsStayUntilReset := by
  intro s t h
  obtain ⟨hreset, ts, rfl⟩ | ⟨hno, hm⟩ := step_next_cases h
  · exact ⟨fun hno => absurd hreset hno, fun _ => ⟨rfl, rfl⟩⟩
  · refine ⟨fun _ => ?_, fun hreset => absurd hreset hno⟩
    obtain ⟨rest, -, hk | ⟨i, he⟩⟩ := move_cases hm
    · exact ⟨fun he => hk.sameConfiguration.errMode.trans he, fun he => hk.sameConfiguration.errDim.trans he⟩
    · exact exec_keeps_errors (s := afterFetch rest s) he

/-- `s` with the error bits at other values. -/
def withErrors (a b : Bool) (s : State) : State := { s with errMode := a, errDim := b }

/-- Two states that differ at most in the error bits. -/
def sameButErrors (t t' : State) : Prop := t = { t' with errMode := t.errMode, errDim := t.errDim }

/-- An update that does not look at the error bits. -/
def IgnoresErrors (f : State → State) : Prop := ∀ s a b, sameButErrors (f s) (f (withErrors a b s))

theorem ignoresErrors_selectMode (d : Word) : IgnoresErrors (selectMode d) := by
  intro s a b
  unfold selectMode
  split <;> rfl

theorem startFrame_empty {s : State} (hn : pixelCount s.srcW s.srcH = 0#32) :
    startFrame s = { s with n := 0#32, pix := 0#32, prevValid := false, done := true } := by
  obtain ⟨-, h⟩ | ⟨hne, -⟩ := startFrame_cases s
  · exact h
  · exact absurd hn hne

theorem startFrame_running {s : State} (hn : pixelCount s.srcW s.srcH ≠ 0#32) :
    startFrame s = { s with
      n := pixelCount s.srcW s.srcH, pix := 0#32, prevValid := false, done := false, line := [], dstBefore := s.dst,
      srcTaken := [], dstKept := [], busy := true } := by
  obtain ⟨h0, -⟩ | ⟨-, h⟩ := startFrame_cases s
  · exact absurd h0 hn
  · exact h

theorem transformCommand_raises {s : State} (h : s.srcW ≠ s.dstW ∨ s.srcH ≠ s.dstH) :
    transformCommand s = raise .dimensionMismatch s := if_pos h

theorem transformCommand_starts {s : State} (h : ¬ (s.srcW ≠ s.dstW ∨ s.srcH ≠ s.dstH)) :
    transformCommand s = startFrame s := if_neg h

theorem ignoresErrors_startFrame : IgnoresErrors startFrame := by
  intro s a b
  by_cases hn : pixelCount s.srcW s.srcH = 0#32
  · rw [startFrame_empty hn, startFrame_empty (s := withErrors a b s) hn]
    rfl
  · rw [startFrame_running hn, startFrame_running (s := withErrors a b s) hn]
    rfl

theorem ignoresErrors_transformCommand : IgnoresErrors transformCommand := by
  intro s a b
  by_cases hne : s.srcW ≠ s.dstW ∨ s.srcH ≠ s.dstH
  · rw [transformCommand_raises hne, transformCommand_raises (s := withErrors a b s) hne]
    rfl
  · rw [transformCommand_starts hne, transformCommand_starts (s := withErrors a b s) hne]
    exact ignoresErrors_startFrame s a b

theorem sameButErrors_storePixel {s s' : State} (h : sameButErrors s s') (q : Pixel) :
    sameButErrors (storePixel q s) (storePixel q s') := by
  rw [h]
  unfold storePixel
  split <;> rfl

theorem ignoresErrors_copyPixel : IgnoresErrors copyPixel := fun s a b =>
  sameButErrors_storePixel (s := s) (s' := withErrors a b s) rfl (takenWord s)

theorem ignoresErrors_filterPixel (t : Pixel → Pixel) : IgnoresErrors (filterPixel t) := fun s a b =>
  sameButErrors_storePixel (s := cacheFilled _ _ s) (s' := cacheFilled _ _ (withErrors a b s)) rfl
    (filterResult t (takenWord s) s)

/-- What O17 asks of an operation other than `RD_STATUS`. -/
def ExecIgnoresErrors (e : State → Outcome) : Prop :=
  ∀ s t a b, e s = .next t → ∃ t', e (withErrors a b s) = .next t' ∧ sameButErrors t t'

theorem execIgnoresErrors_acceptWrite {f : State → State} (hf : IgnoresErrors f) :
    ExecIgnoresErrors (acceptWrite f) := by
  intro s t a b h
  obtain ⟨hb, rfl⟩ | ⟨hb, rfl⟩ := acceptWrite_next h
  · exact ⟨_, acceptWrite_busy (s := withErrors a b t) f hb, rfl⟩
  · exact ⟨_, acceptWrite_idle (s := withErrors a b s) f hb, hf s a b⟩

theorem execIgnoresErrors_inFrame {f : State → State} (hf : IgnoresErrors f) : ExecIgnoresErrors (inFrame f) := by
  intro s t a b h
  obtain ⟨hb, rfl⟩ | ⟨hb, hp, rfl⟩ := inFrame_next h
  · exact ⟨_, inFrame_idle (s := withErrors a b t) f hb, rfl⟩
  · exact ⟨_, inFrame_inside (s := withErrors a b s) f hb hp, hf s a b⟩

theorem execIgnoresErrors_filter (t : Params → Pixel → Pixel) :
    ExecIgnoresErrors (fun s => inFrame (filterPixel (t s.params)) s) := fun s u a b h =>
  execIgnoresErrors_inFrame (ignoresErrors_filterPixel (t s.params)) s u a b h

theorem execIgnoresErrors_answer {v : State → Word} (hv : ∀ s a b, v (withErrors a b s) = v s) :
    ExecIgnoresErrors (fun s => .next (answer (v s) s)) := by
  intro s t a b h
  injection h with h
  refine ⟨_, rfl, ?_⟩
  rw [hv, ← h]
  rfl

theorem exec_ignores_errors {i : Instr} (hi : i ≠ .rdStatus) : ExecIgnoresErrors (exec i) := by
  cases i with
  | selectMode d => exact execIgnoresErrors_acceptWrite (ignoresErrors_selectMode d)
  | setSrcDim h w => exact execIgnoresErrors_acceptWrite (f := setSrcDim h w) fun _ _ _ => rfl
  | setDstDim h w => exact execIgnoresErrors_acceptWrite (f := setDstDim h w) fun _ _ _ => rfl
  | transform x => exact execIgnoresErrors_acceptWrite ignoresErrors_transformCommand
  | ctrlNop x => exact execIgnoresErrors_acceptWrite (f := id) fun _ _ _ => rfl
  | wrIgnored a x => exact execIgnoresErrors_acceptWrite (f := id) fun _ _ _ => rfl
  | rdMode => exact execIgnoresErrors_answer (v := fun s => s.mode.setWidth 32) fun _ _ _ => rfl
  | rdSrcDim => exact execIgnoresErrors_answer (v := fun s => dimWord s.srcH s.srcW) fun _ _ _ => rfl
  | rdDstDim => exact execIgnoresErrors_answer (v := fun s => dimWord s.dstH s.dstW) fun _ _ _ => rfl
  | rdZeroCtrl => exact execIgnoresErrors_answer (v := fun _ => 0#32) fun _ _ _ => rfl
  | rdZeroRes5 => exact execIgnoresErrors_answer (v := fun _ => 0#32) fun _ _ _ => rfl
  | rdZeroRes67 a => exact execIgnoresErrors_answer (v := fun _ => 0#32) fun _ _ _ => rfl
  | rdStatus => exact absurd rfl hi
  | pixNormal => exact execIgnoresErrors_inFrame ignoresErrors_copyPixel
  | pixDeut => exact execIgnoresErrors_filter transformDeut
  | pixProt => exact execIgnoresErrors_filter transformProt
  | pixTrit => exact execIgnoresErrors_filter transformTrit
  | pixGray => exact execIgnoresErrors_filter transformGray

/-- Settles O17: `RD_STATUS` differs in its answer only, and no other operation looks at the error bits. -/
theorem errorBitsBlockNothing : Obligations.ErrorBitsBlockNothing := by
  intro s t i a b h
  by_cases hi : i = .rdStatus
  · subst hi
    injection h with h
    exact ⟨_, rfl, h ▸ rfl, fun hne => absurd rfl hne⟩
  · obtain ⟨t', ht', hsame⟩ := exec_ignores_errors hi s t a b h
    have hreply : t.reply = t'.reply := by rw [hsame]
    refine ⟨t', ht', ?_, fun _ => hreply⟩
    rw [hreply]
    exact hsame

/-! ### Configuration and tables (R19, R20, R24, R40, R105) -/

/-- Settles O53: a move keeps the parameters, and during a frame the configuration and `N`. -/
theorem configurationAndTablesAreFixed : Obligations.ConfigurationAndTablesAreFixed := by
  intro s t h
  obtain ⟨hreset, ts, rfl⟩ | ⟨-, hm⟩ := step_next_cases h
  · exact ⟨rfl, fun _ hno => absurd hreset hno⟩
  · obtain ⟨rest, -, hk | ⟨i, he⟩⟩ := move_cases hm
    · have c := hk.sameConfiguration
      exact ⟨c.params, fun _ _ => ⟨c.mode, c.srcW, c.srcH, c.dstW, c.dstH, hk.n⟩⟩
    · refine ⟨exec_params (s := afterFetch rest s) he, fun hb _ => ?_⟩
      have c : SameConfiguration (afterFetch rest s) t := sameConfiguration_exec_busy hb he
      exact ⟨c.mode, c.srcW, c.srcH, c.dstW, c.dstH, exec_busy_n (s := afterFetch rest s) hb he⟩

/-! ### The source raster (R30, R160) -/

/-- Bringing `DST` in line reaches one word, and only behind the pipe. -/
theorem settle_dst_frame (i : Index) (s : State) :
    (∀ j : Index, j ≠ i → memRead (settle i s).dst j = memRead s.dst j) ∧ (¬ i < s.pix → (settle i s).dst = s.dst) := by
  obtain ⟨hlt, h⟩ | ⟨-, h⟩ := settle_cases i s
  · rw [h]
    exact ⟨fun j hj => memRead_memWrite_other _ _ hj, fun hno => absurd hlt hno⟩
  · rw [h]
    exact ⟨fun _ _ => rfl, fun _ => rfl⟩

theorem hostStoreSrc_rasters {i : Index} {v : Pixel} {s t : State} (h : hostStoreSrc i v s = .next t) :
    t.src = memWrite s.src i v ∧ (∀ j : Index, j ≠ i → memRead t.dst j = memRead s.dst j) ∧
      (¬ (s.busy = true ∧ i < s.n ∧ i < s.pix) → t.dst = s.dst) := by
  obtain ⟨hb, hn, rfl⟩ | ⟨-, rfl⟩ := hostStoreSrc_next h
  · obtain ⟨w, -, hd⟩ := disturbSrc_cases i v s
    rw [hd, settle_src]
    obtain ⟨hother, hahead⟩ := settle_dst_frame i
      { s with src := memWrite s.src i v, srcTaken := (i.toNat, w) :: s.srcTaken, freeIdx := s.freeIdx + 1 }
    exact ⟨rfl, hother, fun hno => hahead fun hp => hno ⟨hb, hn, hp⟩⟩
  · exact ⟨rfl, fun _ _ => rfl, fun _ => rfl⟩

theorem hostStoreDst_src {i : Index} {v : Pixel} {s t : State} (h : hostStoreDst i v s = .next t) : t.src = s.src := by
  obtain ⟨-, -, rfl⟩ | ⟨-, rfl⟩ := hostStoreDst_next h
  · exact disturbDst_src i v s
  · rfl

/-- Settles O54: of all moves only the host's store to `SRC` changes it. -/
theorem sourceChangesOnlyByTheHost : Obligations.SourceChangesOnlyByTheHost := by
  intro s t h hne
  obtain ⟨-, ts, rfl⟩ | ⟨-, hm⟩ := step_next_cases h
  · exact absurd rfl hne
  cases hm with
  | idle => exact absurd rfl hne
  | write w rest _ _ _ he => exact absurd (exec_src he) hne
  | read a rest _ _ he => exact absurd (exec_src he) hne
  | loadSrc i rest _ _ he =>
    injection he with he
    exact absurd (he ▸ rfl) hne
  | storeSrc i v rest _ hq he => exact ⟨i, v, rest, hq, hostStoreSrc_rasters (s := afterFetch rest s) he⟩
  | loadDst i rest _ _ he =>
    obtain ⟨u, k, rfl⟩ := hostLoadDst_next he
    exact absurd rfl hne
  | storeDst i v rest _ _ he => exact absurd (hostStoreDst_src he) hne
  | pixel i _ _ _ he => exact absurd (exec_src he) hne

end Sys2Proof.Machine
end

section
/-! PROOFS. Legal states always step (R107, R135, R142), and what a pixel step takes and writes, with either driver form
(R109, R114). -/

namespace Sys2Proof.Machine

/-! ### The pixel operation of a mode answers -/

/-- Inside the frame the operation of any mode stores a word, whatever the cache holds. -/
theorem exec_pixel_answers {s : State} {i : Instr} (hb : s.busy = true) (hp : s.pix < s.n)
    (hd : decodePixel s.mode = .ok i) : ∃ q v p o, exec i s = .next (storePixel q (withCache v p o s)) := by
  obtain ⟨-, rfl, -⟩ | ⟨f, hf, -⟩ := decodePixel_cases hd
  · exact ⟨_, s.prevValid, s.prevIn, s.prevOut, exec_pixNormal_of_busy hb hp⟩
  · exact ⟨_, true, takenWord s, _, exec_filter_of_busy hf hb hp⟩

/-- In a legal state the word stored is the transform of the word the pipe takes (R109). -/
theorem exec_pixel_of_inv {s : State} {i : Instr} (hi : Inv s) (hb : s.busy = true) (hd : decodePixel s.mode = .ok i) :
    ∃ q v p o, exec i s = .next (storePixel q (withCache v p o s)) ∧
      modeTransform s.params s.mode (pipeWord s.pix s) = some q := by
  obtain ⟨_, _, _, _, he⟩ := exec_pixel_answers hb (hi.busyInside hb) hd
  obtain ⟨q, v, p, o, hq, -, ht⟩ := pixel_next hi hb hd he
  exact ⟨q, v, p, o, he.trans (congrArg _ ht), hq⟩

/-- Settles O23: the word stored is the transform of the word taken, and the records only override it. -/
theorem pixelStepWritesTheTransform : Obligations.PixelStepWritesTheTransform := by
  intro s i hi hb hd
  obtain ⟨q, v, p, o, he, hq⟩ := exec_pixel_of_inv hi hb hd
  have hword : memRead (storePixel q (withCache v p o s)).dst s.pix = settledWord s.pix q s :=
    memRead_dst_storePixel (s := withCache v p o s) hi.dstCanonical q
  exact ⟨_, q, he, hq, hword, fun ht => pipeWord_of_none_taken ht _,
    fun hk => hword.trans (settledWord_of_none_kept hk _ _)⟩

/-! ### The driver forms (R114, assumption 18) -/

theorem takenWord_streaming {s : State} (h : s.params.driver = .streaming) : takenWord s = pipeWord s.pix s := by
  rw [takenWord, wordsAtHand_streaming h]
  rfl

theorem takenWord_row_start {s : State} (h : s.params.driver = .rowBuffered) (hl : s.line = []) (hw : s.srcW ≠ 0#16) :
    takenWord s = pipeWord s.pix s := by
  obtain ⟨k, hk⟩ : ∃ k, s.srcW.toNat = k + 1 :=
    Nat.exists_eq_succ_of_ne_zero fun h0 => hw (BitVec.eq_of_toNat_eq h0)
  rw [takenWord, wordsAtHand_row_start h hl, hk]
  rfl

theorem takenWord_in_row {s : State} (h : s.params.driver = .rowBuffered) {w : Pixel} {ws : List Pixel}
    (hl : s.line = w :: ws) : takenWord s = overlay s.srcTaken s.pix.toNat w := by
  rw [takenWord, wordsAtHand_in_row h (by simp [hl]), hl]
  rfl

/-- Settles O24: the pixel step leaves the words at hand but the first, and what those are is the driver's affair. -/
theorem driverReadsAWordOrARow : Obligations.DriverReadsAWordOrARow := by
  intro s hb hp hm
  obtain ⟨i, hd⟩ := decodePixel_of_le hm
  obtain ⟨q, v, p, o, he⟩ := exec_pixel_answers hb hp hd
  have hline : (storePixel q (withCache v p o s)).line = (wordsAtHand s).tail := storePixel_line q _
  refine ⟨i, _, hd, he, fun hdr => ⟨takenWord_streaming hdr, ?_⟩, fun hdr hl hw => ⟨takenWord_row_start hdr hl hw, ?_⟩,
    fun hdr w ws hl => ⟨takenWord_in_row hdr hl, ?_⟩⟩
  · rw [hline, wordsAtHand_streaming hdr, List.tail_cons]
  · have hpos : s.srcW.toNat ≠ 0 := fun h0 => hw (BitVec.eq_of_toNat_eq h0)
    rw [hline, wordsAtHand_row_start hdr hl, List.length_tail, readRow_length]
    refine ⟨by omega, fun k hk => ?_⟩
    rw [List.getElem?_tail, readRow_getElem? _ _ hk]
  · rw [hline, wordsAtHand_in_row hdr (by simp [hl]), hl, List.tail_cons]

/-! ### No stop in a legal state (R135, R142) -/

theorem exec_write_answers {i : Instr} (h : i.isWrite = true) (s : State) : ∃ t, exec i s = .next t := by
  cases i with
  | selectMode => exact ⟨_, rfl⟩
  | setSrcDim => exact ⟨_, rfl⟩
  | setDstDim => exact ⟨_, rfl⟩
  | transform => exact ⟨_, rfl⟩
  | ctrlNop => exact ⟨_, rfl⟩
  | wrIgnored => exact ⟨_, rfl⟩
  | _ => exact absurd h Bool.false_ne_true

theorem hostLoadDst_answers (i : Index) (s : State) : ∃ t, hostLoadDst i s = .next t := by
  unfold hostLoadDst
  split <;> exact ⟨_, rfl⟩

/-- Every operation of the host has a next state, in any state. -/
theorem hostMove_answers (op : HostOp) (s : State) : ∃ t, (hostMove op s).answers t := by
  cases op with
  | ctrlWrite w => exact exec_write_answers (isWrite_decodeWrite w) s
  | ctrlRead a =>
    obtain ⟨v, hv⟩ := exec_decodeRead a s
    exact ⟨_, hv⟩
  | loadSrc i => exact ⟨_, rfl⟩
  | storeSrc i v => exact ⟨_, rfl⟩
  | loadDst i => exact hostLoadDst_answers i s
  | storeDst i v => exact ⟨_, rfl⟩

theorem hostTurn_answers (s : State) : ∃ t, (hostTurn s).answers t := by
  match hq : s.hostq with
  | [] =>
    rw [hostTurn_nil hq]
    exact ⟨s, rfl⟩
  | op :: rest =>
    cases hw : mustWait op s with
    | true =>
      rw [hostTurn_waits hq hw]
      exact ⟨s, rfl⟩
    | false =>
      rw [hostTurn_moves hq hw]
      exact hostMove_answers op _

/-- The pipe stops only with a reserved `MODE` or with `PIX` beyond the frame, which the invariant excludes. -/
theorem pipeTurn_answers {s : State} (hi : Inv s) : ∃ t, (pipeTurn s).answers t := by
  cases hb : s.busy with
  | false =>
    rw [pipeTurn_idle hb]
    exact ⟨s, rfl⟩
  | true =>
    obtain ⟨i, hd⟩ := decodePixel_of_le hi.modeLegal
    obtain ⟨q, v, p, o, he⟩ := exec_pixel_answers hb (hi.busyInside hb) hd
    rw [pipeTurn_busy hb]
    refine ⟨storePixel q (withCache v p o s), ?_⟩
    simp only [Fetched.answers, runCode, decode, hd]
    exact he

/-- The invariant does not look at the turns. -/
theorem inv_withTurns {s : State} (hi : Inv s) (ts : List Turn) : Inv { s with turns := ts } :=
  inv_of_sameRasters hi rfl rfl rfl rfl

/-- Settles O45: whoever moves, there is a next state. -/
theorem legalStatesAlwaysStep : Obligations.LegalStatesAlwaysStep := by
  intro s hi
  simp only [step_eq_next]
  match ht : s.turns with
  | .reset :: ts =>
    rw [fetch_reset ht]
    exact ⟨_, rfl⟩
  | .host :: ts =>
    rw [fetch_host ht]
    exact hostTurn_answers _
  | .pipe :: ts =>
    rw [fetch_pipe ht]
    exact pipeTurn_answers (inv_withTurns hi ts)
  | [] =>
    cases hr : hostReady s with
    | true =>
      rw [fetch_ready ht hr]
      exact hostTurn_answers s
    | false =>
      rw [fetch_not_ready ht hr]
      exact pipeTurn_answers hi

end Sys2Proof.Machine
end

section
/-! PROOFS. Every step keeps both invariants (R11 to R13, R38, R40, R109, R113), whatever the host stores into the frame
(R160, R161): what a step can do while `BUSY = 1`, the records it leaves, and the words of the frame. -/

namespace Sys2Proof.Machine

/-! ### A step while `BUSY = 1` -/

/-- The host has issued `SRC[i] <- v` inside the running frame, and the pipe takes `w` there (R160). -/
def srcDisturbed (i : Index) (v w : Pixel) (rest : List HostOp) (s : State) : State :=
  { s with
    turns := s.turns.tail, hostq := rest, src := memWrite s.src i v, srcTaken := (i.toNat, w) :: s.srcTaken,
    freeIdx := s.freeIdx + 1 }

/-- The host has issued `DST[i] <- v` inside the running frame, and `kept` records what outlives the pipe (R161). -/
def dstDisturbed (i : Index) (v : Pixel) (kept : List Cell) (rest : List HostOp) (s : State) : State :=
  { s with
    turns := s.turns.tail, hostq := rest, dst := memWrite s.dst i v, dstBefore := memWrite s.dstBefore i v,
    dstKept := kept, freeIdx := s.freeIdx + 1 }

/-- What a step other than a reset can do in a running frame: the host issues at most one operation outside its words,
or stores to one of them, or the pipe takes a pixel step. -/
inductive BusyMove (s : State) : State → Prop where
  | host (ops rest : List HostOp) (reply : Option Word) (k : Nat) (hq : s.hostq = ops ++ rest)
      (ha : ops.all (avoidsFrame s.n) = true) : BusyMove s (hostMoved ops rest reply k s)
  | storeSrc (i : Index) (v w : Pixel) (rest : List HostOp) (hq : s.hostq = .storeSrc i v :: rest) (hn : i < s.n)
      (hw : w = v ∨ w = pipeWord i s) : BusyMove s (settle i (srcDisturbed i v w rest s))
  | storeDst (i : Index) (v : Pixel) (kept : List Cell) (rest : List HostOp) (hq : s.hostq = .storeDst i v :: rest)
      (hn : i < s.n) (hk : kept = s.dstKept ∨ kept = (i.toNat, v) :: s.dstKept) :
      BusyMove s (settle i (dstDisturbed i v kept rest s))
  | pixel (hp : s.pix < s.n) (q : Pixel) (v : Bool) (p o : Pixel)
      (hT : Inv s → modeTransform s.params s.mode (pipeWord s.pix s) = some q) :
      BusyMove s (storePixel q (withCache v p o (afterTurn s)))

/-- An operation outside the frame is among those `avoidsFrame` admits. -/
theorem busyMove_issued {s : State} {op : HostOp} {rest : List HostOp} (hq : s.hostq = op :: rest)
    (ha : avoidsFrame s.n op = true) (reply : Option Word) (k : Nat) :
    BusyMove s (hostMoved [op] rest reply k s) :=
  .host [op] rest reply k hq (by simp [ha])

/-- A word that is none of a running frame's lies at or beyond `N`. -/
theorem le_of_not_inFrame {s : State} {i : Index} (hb : s.busy = true) (h : ¬ (s.busy = true ∧ i < s.n)) :
    decide (s.n ≤ i) = true :=
  decide_eq_true (BitVec.not_lt.mp fun hi => h ⟨hb, hi⟩)

theorem inside_of_exec_pixel {s t : State} {i : Instr} (hb : s.busy = true) (hd : decodePixel s.mode = .ok i)
    (he : exec i s = .next t) : s.pix < s.n := by
  have inside : ∀ {f : State → State}, inFrame f s = .next t → s.pix < s.n := fun h => by
    obtain ⟨hidle, -⟩ | ⟨-, hp, -⟩ := inFrame_next h
    · exact absurd (hb.symm.trans hidle) (by decide)
    · exact hp
  obtain ⟨-, rfl, -⟩ | ⟨f, hf, -⟩ := decodePixel_cases hd
  · exact inside (f := copyPixel) he
  · exact inside ((exec_filter hf s).symm.trans he)

theorem busyMove_of_move {s t : State} (hb : s.busy = true) (h : Move s t) : BusyMove s t := by
  cases h with
  | idle => exact .host [] s.hostq s.reply s.freeIdx rfl rfl
  | write w rest _ _ hidle => exact absurd (hb.symm.trans hidle) (by decide)
  | read a rest _ hq he =>
    obtain ⟨v, hv⟩ := exec_decodeRead a (afterFetch rest s)
    injection hv.symm.trans he with he
    exact he ▸ busyMove_issued hq rfl (some v) s.freeIdx
  | loadSrc i rest _ hq he =>
    injection he with he
    exact he ▸ busyMove_issued hq rfl (some (memRead s.src i)) s.freeIdx
  | storeSrc i v rest _ hq he =>
    obtain ⟨-, hn, rfl⟩ | ⟨hout, rfl⟩ := hostStoreSrc_next he
    · obtain ⟨w, hw, hd⟩ := disturbSrc_cases i v (afterFetch rest s)
      exact hd ▸ .storeSrc i v w rest hq hn hw
    · exact busyMove_issued hq (le_of_not_inFrame hb hout) s.reply s.freeIdx
  | loadDst i rest _ hq he =>
    obtain ⟨u, k, rfl⟩ := hostLoadDst_next he
    exact busyMove_issued hq rfl (some u) k
  | storeDst i v rest _ hq he =>
    obtain ⟨-, hn, rfl⟩ | ⟨hout, rfl⟩ := hostStoreDst_next he
    · obtain ⟨kept, hk, hd⟩ := disturbDst_cases i v (afterFetch rest s)
      exact hd ▸ .storeDst i v kept rest hq hn hk
    · exact busyMove_issued hq (le_of_not_inFrame hb hout) s.reply s.freeIdx
  | pixel i _ _ hd he =>
    have hp : s.pix < s.n := inside_of_exec_pixel (s := afterTurn s) hb hd he
    by_cases hi : Inv s
    · obtain ⟨q, v, p, o, hT, -, rfl⟩ := pixel_next (inv_withTurns hi s.turns.tail) hb hd he
      exact .pixel hp q v p o fun _ => hT
    · obtain ⟨q, v, p, o, ht⟩ := exec_pixel_answers (s := afterTurn s) hb hp hd
      injection he.symm.trans ht with ht
      exact ht ▸ .pixel hp q v p o fun h => absurd h hi

theorem busyMove_of_step {s t : State} (hb : s.busy = true) (hr : s.turns.head? ≠ some .reset)
    (h : step s = .next t) : BusyMove s t := by
  obtain ⟨hreset, -⟩ | ⟨-, hm⟩ := step_next_cases h
  · exact absurd hreset hr
  · exact busyMove_of_move hb hm

/-! ### The records of a frame (assumptions 13, 14) -/

theorem pixelCount_ne_zero {w h : BitVec 16} (hw : w ≠ 0#16) (hh : h ≠ 0#16) : pixelCount w h ≠ 0#32 := by
  intro h0
  have hprod : w.toNat * h.toNat = 0 := by rw [← toNat_pixelCount, h0]; rfl
  obtain hz | hz := Nat.mul_eq_zero.mp hprod
  · exact hw (BitVec.eq_of_toNat_eq hz)
  · exact hh (BitVec.eq_of_toNat_eq hz)

/-- Settles O46: a frame starts with its records empty, and in it each of the two kinds of store adds to its own. -/
theorem frameRecordsFollowTheHost : Obligations.FrameRecordsFollowTheHost := by
  refine ⟨fun s t x hb hw hh hw0 hh0 he => ?_,
    fun s i q => ⟨fun h => pipeWord_of_none_taken h i, fun h => settledWord_of_none_kept h i q⟩,
    fun s t hb hr h => ?_⟩
  · rw [exec_transform_idle hb hw hh, startFrame_running (pixelCount_ne_zero hw0 hh0)] at he
    injection he with he
    exact he ▸ ⟨rfl, rfl, rfl, rfl⟩
  · cases busyMove_of_step hb hr h with
    | host ops rest reply k hq ha => exact ⟨.inl rfl, .inl ⟨rfl, rfl⟩⟩
    | storeSrc i v w rest hq hn hw =>
      rw [settle_srcTaken, settle_dstBefore, settle_dstKept]
      exact ⟨.inr ⟨i, v, w, rest, hq, hn, rfl, hw⟩, .inl ⟨rfl, rfl⟩⟩
    | storeDst i v kept rest hq hn hk =>
      rw [settle_srcTaken, settle_dstBefore, settle_dstKept]
      exact ⟨.inl rfl, .inr ⟨i, v, rest, hq, hn, rfl, hk⟩⟩
    | pixel hp q v p o hT =>
      rw [storePixel_srcTaken, storePixel_dstBefore, storePixel_dstKept]
      exact ⟨.inl rfl, .inl ⟨rfl, rfl⟩⟩

/-! ### The word the pipe takes, and the word that stays -/

/-- The host's operations outside the frame change neither for an index of the frame. -/
theorem pipeWord_hostMoved {s : State} {ops : List HostOp} (ha : ops.all (avoidsFrame s.n) = true) {j : Index}
    (hj : j < s.n) (rest : List HostOp) (reply : Option Word) (k : Nat) :
    pipeWord j (hostMoved ops rest reply k s) = pipeWord j s := by
  simp only [pipeWord, hostMoved, memRead_srcAfter_of_avoids hj ha]

theorem toNat_ne_of_ne {i j : Index} (h : j ≠ i) : j.toNat ≠ i.toNat := fun hn => h (BitVec.eq_of_toNat_eq hn)

theorem pipeWord_srcDisturbed_same (i : Index) (v w : Pixel) (rest : List HostOp) (s : State) :
    pipeWord i (srcDisturbed i v w rest s) = w := overlay_cons_same _ _ _ _

theorem pipeWord_srcDisturbed_other {i j : Index} (h : j ≠ i) (v w : Pixel) (rest : List HostOp) (s : State) :
    pipeWord j (srcDisturbed i v w rest s) = pipeWord j s := by
  simp only [pipeWord, srcDisturbed, overlay_cons_other _ _ _ (toNat_ne_of_ne h), memRead_memWrite_other _ _ h]

theorem settledWord_dstDisturbed_other {i j : Index} (h : j ≠ i) {v : Pixel} {kept : List Cell} {s : State}
    (hk : kept = s.dstKept ∨ kept = (i.toNat, v) :: s.dstKept) (rest : List HostOp) (q : Pixel) :
    settledWord j q (dstDisturbed i v kept rest s) = settledWord j q s := by
  obtain rfl | rfl := hk
  · rfl
  · exact overlay_cons_other _ _ _ (toNat_ne_of_ne h)

@[simp] theorem pipeWord_storePixel (j : Index) (q : Pixel) (s : State) :
    pipeWord j (storePixel q s) = pipeWord j s := by
  simp [pipeWord]

@[simp] theorem settledWord_storePixel (j : Index) (r q : Pixel) (s : State) :
    settledWord j r (storePixel q s) = settledWord j r s := by simp [settledWord]

/-! ### The words behind the pipe -/

/-- Every legal mode has a transform. -/
theorem modeTransform_of_le {m : BitVec 3} (hm : m.toNat ≤ 4) (ps : Params) (p : Pixel) :
    ∃ r, modeTransform ps m p = some r := by
  obtain ⟨i, hd⟩ := decodePixel_of_le hm
  obtain ⟨-, -, h⟩ | ⟨f, -, h⟩ := decodePixel_cases hd
  · exact ⟨_, h ps p⟩
  · exact ⟨_, h ps p⟩

/-- `DST[i]` holds the frame's result: the clause of `prefixDone` for one index. -/
def WordDone (s : State) (i : Index) : Prop :=
  ∃ r, modeTransform s.params s.mode (pipeWord i s) = some r ∧ memRead s.dst i = settledWord i r s

/-- A word stays done when nothing that decides it changes. -/
theorem WordDone.congr {s t : State} {i : Index} (h : WordDone s i) (hp : t.params = s.params) (hm : t.mode = s.mode)
    (hw : pipeWord i t = pipeWord i s) (hs : ∀ r, settledWord i r t = settledWord i r s)
    (hd : memRead t.dst i = memRead s.dst i) : WordDone t i := by
  obtain ⟨r, hr, hdst⟩ := h
  exact ⟨r, by rw [hp, hm, hw, hr], by rw [hd, hs, hdst]⟩

/-- `settle` brings the word at its index in line, when the pipe is past it. -/
theorem wordDone_settle {s : State} (hm : s.mode.toNat ≤ 4) (hw : Memory.wf s.dst = true) {i : Index} (h : i < s.pix) :
    WordDone (settle i s) i := by
  obtain ⟨r, hr⟩ := modeTransform_of_le hm s.params (pipeWord i s)
  refine ⟨r, by rw [settle_params, settle_mode, pipeWord_settle, hr], ?_⟩
  obtain ⟨-, hs⟩ | ⟨hno, -⟩ := settle_cases i s
  · rw [settledWord_settle, hs, memRead_memWrite_same hw, frameResult_of_transform hr]
  · exact absurd h hno

/-- `settle` leaves the word at any other index as it was. -/
theorem wordDone_settle_other {s : State} {i j : Index} (hj : j ≠ i) (h : WordDone s j) : WordDone (settle i s) j :=
  h.congr (settle_params i s) (settle_mode i s) (pipeWord_settle i j s) (fun r => settledWord_settle i j r s)
    ((settle_dst_frame i s).1 j hj)

/-- After a store of the host into the frame, every word behind the pipe is done again. -/
theorem prefixDone_settle {s : State} (hm : s.mode.toNat ≤ 4) (hw : Memory.wf s.dst = true) (i : Index)
    (h : ∀ j, j < s.pix → j ≠ i → WordDone s j) : prefixDone (settle i s) := by
  intro j hj
  rw [settle_pix] at hj
  by_cases hji : j = i
  · exact hji ▸ wordDone_settle hm hw (hji ▸ hj)
  · exact wordDone_settle_other hji (h j hj hji)

theorem prefixDone_storePixel {s : State} (hw : Memory.wf s.dst = true) (hp : s.pix < s.n) (h : prefixDone s)
    {q : Pixel} (hT : modeTransform s.params s.mode (pipeWord s.pix s) = some q) : prefixDone (storePixel q s) := by
  intro j hj
  rw [storePixel_pix] at hj
  obtain hlt | rfl := lt_succ_cases hp hj
  · refine WordDone.congr (h j hlt) (storePixel_params q s) (storePixel_mode q s) (pipeWord_storePixel j q s)
      (fun r => settledWord_storePixel j r q s) ?_
    rw [storePixel_dst, memRead_memWrite_other _ _ (BitVec.ne_of_lt hlt)]
  · refine ⟨q, by rw [storePixel_params, storePixel_mode, pipeWord_storePixel, hT], ?_⟩
    rw [settledWord_storePixel, memRead_dst_storePixel hw]

/-- R12, R115: in a running frame no step undoes a word behind the pipe. -/
theorem prefixDone_busyMove {s t : State} (hi : Inv s) (hb : s.busy = true) (hs : prefixDone s) (h : BusyMove s t) :
    prefixDone t := by
  cases h with
  | host ops rest reply k hq ha =>
    intro j hj
    have hn : j < s.n := BitVec.lt_trans hj (hi.busyInside hb)
    exact WordDone.congr (hs j hj) rfl rfl (pipeWord_hostMoved ha hn rest reply k) (fun _ => rfl)
      (memRead_dstAfter_of_avoids hn ha s.dst)
  | storeSrc i v w rest hq hn hw =>
    refine prefixDone_settle (s := srcDisturbed i v w rest s) hi.modeLegal hi.dstCanonical i fun j hj hji => ?_
    exact WordDone.congr (hs j hj) rfl rfl (pipeWord_srcDisturbed_other hji v w rest s) (fun _ => rfl) rfl
  | storeDst i v kept rest hq hn hk =>
    refine prefixDone_settle (s := dstDisturbed i v kept rest s) hi.modeLegal (wf_memWrite hi.dstCanonical i v) i
      fun j hj hji => ?_
    exact WordDone.congr (hs j hj) rfl rfl rfl (settledWord_dstDisturbed_other hji hk rest)
      (memRead_memWrite_other _ _ hji)
  | pixel hp q v p o hT =>
    exact prefixDone_storePixel (s := withCache v p o (afterTurn s)) hi.dstCanonical hp hs (hT hi)

/-! ### The words ahead of the pipe -/

/-- From `PIX` on the words of the frame hold what they held before it (R38 item 4). -/
def SuffixKept (s : State) : Prop := ∀ i : Index, ¬ i < s.pix → i < s.n → memRead s.dst i = memRead s.dstBefore i

/-- `settle` reaches no word ahead of the pipe. -/
theorem suffixKept_settle {s : State} (h : SuffixKept s) (i : Index) : SuffixKept (settle i s) := by
  intro j hj hn
  rw [settle_pix] at hj
  rw [settle_n] at hn
  rw [settle_dstBefore, ← h j hj hn]
  obtain ⟨hlt, hs⟩ | ⟨-, hs⟩ := settle_cases i s
  · rw [hs, memRead_memWrite_other _ _ fun (hji : j = i) => hj (hji ▸ hlt)]
  · rw [hs]

theorem suffixKept_busyMove {s t : State} (hi : Inv s) (hw : Memory.wf s.dstBefore = true) (hs : SuffixKept s)
    (h : BusyMove s t) : SuffixKept t := by
  cases h with
  | host ops rest reply k hq ha =>
    intro j hj hn
    exact (memRead_dstAfter_of_avoids hn ha s.dst).trans (hs j hj hn)
  | storeSrc i v w rest hq hn hw => exact suffixKept_settle (s := srcDisturbed i v w rest s) hs i
  | storeDst i v kept rest hq hn hk =>
    refine suffixKept_settle (s := dstDisturbed i v kept rest s) (fun j hj hjn => ?_) i
    show memRead (memWrite s.dst i v) j = memRead (memWrite s.dstBefore i v) j
    rw [memRead_memWrite hi.dstCanonical, memRead_memWrite hw, hs j hj hjn]
  | pixel hp q v p o hT =>
    intro j hj hn
    rw [storePixel_pix] at hj
    rw [storePixel_n] at hn
    have hpix : s.pix < s.pix + 1#32 := BitVec.lt_def.mpr (by rw [toNat_succ_of_lt hp]; omega)
    have hne : j ≠ s.pix := fun h => hj (h ▸ hpix)
    have hge : ¬ j < s.pix := fun h => hj (BitVec.lt_trans h hpix)
    rw [storePixel_dst, storePixel_dstBefore]
    exact (memRead_memWrite_other _ _ hne).trans (hs j hge hn)

theorem wf_dstBefore_busyMove {s t : State} (hw : Memory.wf s.dstBefore = true) (h : BusyMove s t) :
    Memory.wf t.dstBefore = true := by
  cases h with
  | host ops rest reply k hq ha => exact hw
  | storeSrc i v w rest hq hn _ =>
    rw [settle_dstBefore]
    exact hw
  | storeDst i v kept rest hq hn hk =>
    rw [settle_dstBefore]
    exact wf_memWrite hw i v
  | pixel hp q v p o hT =>
    rw [storePixel_dstBefore]
    exact hw

/-! ### The second invariant -/

/-- Between frames the second invariant asks only for a canonical record. -/
theorem frameSound_of_idle {s : State} (hb : s.busy = false) (hw : Memory.wf s.dstBefore = true) : FrameSound s :=
  ⟨fun h => absurd (hb.symm.trans h) (by decide), fun h => absurd (hb.symm.trans h) (by decide), hw⟩

/-- A frame starts with nothing behind the pipe and with `DST` as the record of the old words. -/
theorem frameSound_startFrame {s : State} (hi : Inv s) (hb : s.busy = false) (hw : Memory.wf s.dstBefore = true) :
    FrameSound (startFrame s) := by
  obtain ⟨-, h⟩ | ⟨-, h⟩ := startFrame_cases s
  · rw [h]
    exact frameSound_of_idle hb hw
  · rw [h]
    exact ⟨fun _ i hlt => absurd hlt BitVec.not_lt_zero, fun _ _ _ _ => rfl, hi.dstCanonical⟩

theorem frameSound_exec_idle {i : Instr} {s t : State} (hi : Inv s) (hs : FrameSound s) (hb : s.busy = false)
    (h : exec i s = .next t) : FrameSound t := by
  have hw := hs.beforeCanonical
  obtain rfl | ⟨v, rfl⟩ | ⟨-, hwrite⟩ | ⟨hbusy, -⟩ := exec_next h
  · exact hs
  · exact frameSound_of_idle hb hw
  · obtain ⟨d, -, rfl⟩ | ⟨a, b, -, rfl⟩ | ⟨a, b, -, rfl⟩ | ⟨x, -, rfl⟩ := hwrite
    · obtain ⟨-, h⟩ | ⟨-, h⟩ := selectMode_cases d s <;> rw [h] <;> exact frameSound_of_idle hb hw
    · exact frameSound_of_idle hb hw
    · exact frameSound_of_idle hb hw
    · obtain ⟨-, h⟩ | ⟨-, -, h⟩ := transformCommand_cases s
      · rw [h]
        exact frameSound_of_idle hb hw
      · rw [h]
        exact frameSound_startFrame hi hb hw
  · exact absurd (hb.symm.trans hbusy) (by decide)

/-- A store of the host outside a frame leaves the record. -/
theorem dstBefore_of_store_idle {s t : State} (hb : s.busy = false) {i : Index} {v : Pixel}
    (h : hostStoreSrc i v s = .next t ∨ hostStoreDst i v s = .next t) : t.dstBefore = s.dstBefore := by
  obtain h | h := h
  · obtain ⟨hbusy, -⟩ | ⟨-, rfl⟩ := hostStoreSrc_next h
    · exact absurd (hb.symm.trans hbusy) (by decide)
    · rfl
  · obtain ⟨hbusy, -⟩ | ⟨-, rfl⟩ := hostStoreDst_next h
    · exact absurd (hb.symm.trans hbusy) (by decide)
    · rfl

theorem frameSound_move_idle {s t : State} (hi : Inv s) (hs : FrameSound s) (hb : s.busy = false) (h : Move s t) :
    FrameSound t := by
  have taken : ∀ rest, Inv (afterFetch rest s) := fun _ => inv_of_sameRasters hi rfl rfl rfl rfl
  have sound : ∀ rest, FrameSound (afterFetch rest s) := fun _ => frameSound_of_idle hb hs.beforeCanonical
  have stored : ∀ {rest : List HostOp}, byHost (afterFetch rest s) t → t.dstBefore = s.dstBefore → FrameSound t :=
    fun hk hd => frameSound_of_idle (hk.busy.trans hb) (hd ▸ hs.beforeCanonical)
  cases h with
  | idle => exact sound s.hostq
  | write w rest _ _ _ he => exact frameSound_exec_idle (taken rest) (sound rest) hb he
  | read a rest _ _ he => exact frameSound_exec_idle (taken rest) (sound rest) hb he
  | loadSrc i rest _ _ he =>
    have hd : t.dstBefore = s.dstBefore := by
      injection he with he
      exact he ▸ rfl
    exact stored (byHost_hostLoadSrc he) hd
  | storeSrc i v rest _ _ he =>
    exact stored (byHost_hostStoreSrc he) (dstBefore_of_store_idle (s := afterFetch rest s) hb (.inl he))
  | loadDst i rest _ _ he =>
    have hd : t.dstBefore = s.dstBefore := by
      obtain ⟨u, k, rfl⟩ := hostLoadDst_next he
      rfl
    exact stored (byHost_hostLoadDst he) hd
  | storeDst i v rest _ _ he =>
    exact stored (byHost_hostStoreDst he) (dstBefore_of_store_idle (s := afterFetch rest s) hb (.inr he))
  | pixel i _ hbusy _ _ => exact absurd (hb.symm.trans hbusy) (by decide)

/-- The second invariant is inductive too, on top of the first. -/
theorem frameSound_step {s t : State} (hi : Inv s) (hs : FrameSound s) (h : step s = .next t) : FrameSound t := by
  obtain ⟨-, ts, rfl⟩ | ⟨-, hm⟩ := step_next_cases h
  · exact frameSound_of_idle rfl rfl
  cases hb : s.busy with
  | false => exact frameSound_move_idle hi hs hb hm
  | true =>
    have hbm := busyMove_of_move hb hm
    exact ⟨fun _ => prefixDone_busyMove hi hb (hs.written hb) hbm,
      fun _ => suffixKept_busyMove hi hs.beforeCanonical (hs.waiting hb) hbm,
      wf_dstBefore_busyMove hs.beforeCanonical hbm⟩

/-- Settles O44: both invariants are inductive. -/
theorem everyStepKeepsTheInvariant : Obligations.EveryStepKeepsTheInvariant := fun _ _ hi h =>
  ⟨inv_step hi h, fun hs => frameSound_step hi hs h⟩

/-! ### Reset (R23, R155, R157) -/

/-- Settles O43: the machine is idle with empty rasters. -/
theorem invariantHoldsAtReset : Obligations.InvariantHoldsAtReset :=
  ⟨inv_of_idle rfl (Nat.zero_le 4) rfl rfl rfl, frameSound_of_idle rfl rfl, rfl, rfl, rfl, rfl, rfl, rfl⟩

/-- Each word of a running frame is the one from before or the frame's result (R38 item 4). -/
theorem FrameSound.word {s : State} (hs : FrameSound s) (hb : s.busy = true) {i : Index} (hi : i < s.n) :
    memRead s.dst i = memRead s.dstBefore i ∨ WordDone s i := by
  by_cases hp : i < s.pix
  · exact .inr (hs.written hb i hp)
  · exact .inl (hs.waiting hb i hp hi)

/-- Settles O42: the reset step leaves both rasters, and in a frame `FrameSound` says what `DST` holds. -/
theorem resetGivesTheResetValues : Obligations.ResetGivesTheResetValues := fun s ts hts =>
  ⟨resetStep { s with turns := ts }, step_of_other (fetch_reset hts), rfl, rfl, rfl, rfl, rfl, rfl, rfl, rfl, rfl, rfl,
    rfl, rfl, rfl, rfl, fun _ => rfl, fun _ _ => rfl, fun hs hb _ hi => hs.word hb hi⟩

end Sys2Proof.Machine
end

section
/-! PROOFS. The host's raster accesses (R30, R31, R38, R160, R161), and the progress of a frame whatever the host does:
one pixel a step (R113), and an end (R170). -/

namespace Sys2Proof.Machine

/-! ### The host's accesses in its turn -/

/-- The state from which an operation of the host runs: `ts` are the turns, `rest` the operations after it. -/
abbrev hostState (ts : List Turn) (rest : List HostOp) (s : State) : State := { s with turns := ts, hostq := rest }

theorem step_host_access {s : State} {op : HostOp} {rest : List HostOp} {ts : List Turn} {f : State → Outcome}
    (ht : s.turns = .host :: ts) (hq : s.hostq = op :: rest) (hw : ∀ u, mustWait op u = false)
    (hm : ∀ u, hostMove op u = .other (f u)) : step s = f (hostState ts rest s) :=
  step_of_other ((fetch_host ht).trans ((hostTurn_moves (s := { s with turns := ts }) hq (hw _)).trans (hm _)))

theorem hostStoreSrc_inside {s : State} {i : Index} (h : s.busy = true ∧ i < s.n) (v : Pixel) :
    hostStoreSrc i v s = .next (disturbSrc i v s) := by rw [hostStoreSrc, if_pos ((inRunningFrame_iff i s).mpr h)]

theorem hostStoreSrc_outside {s : State} {i : Index} (h : ¬ (s.busy = true ∧ i < s.n)) (v : Pixel) :
    hostStoreSrc i v s = .next { s with src := memWrite s.src i v } := by
  rw [hostStoreSrc, if_neg fun hin => h ((inRunningFrame_iff i s).mp hin)]

theorem hostStoreDst_inside {s : State} {i : Index} (h : s.busy = true ∧ i < s.n) (v : Pixel) :
    hostStoreDst i v s = .next (disturbDst i v s) := by rw [hostStoreDst, if_pos ((inRunningFrame_iff i s).mpr h)]

theorem hostStoreDst_outside {s : State} {i : Index} (h : ¬ (s.busy = true ∧ i < s.n)) (v : Pixel) :
    hostStoreDst i v s = .next { s with dst := memWrite s.dst i v } := by
  rw [hostStoreDst, if_neg fun hin => h ((inRunningFrame_iff i s).mp hin)]

theorem hostLoadDst_inside {s : State} {i : Index} (h : s.busy = true ∧ i < s.n) :
    hostLoadDst i s = .next (answer (unsettledWord i s) { s with freeIdx := s.freeIdx + 1 }) := by
  rw [hostLoadDst, if_pos ((inRunningFrame_iff i s).mpr h)]

theorem hostLoadDst_outside {s : State} {i : Index} (h : ¬ (s.busy = true ∧ i < s.n)) :
    hostLoadDst i s = .next (answer (memRead s.dst i) s) := by
  rw [hostLoadDst, if_neg fun hin => h ((inRunningFrame_iff i s).mp hin)]

/-- The two words of R38 item 4. -/
theorem unsettledWord_cases (i : Index) (s : State) :
    unsettledWord i s = memRead s.dstBefore i ∨ unsettledWord i s = frameResult i s := by
  unfold unsettledWord
  split
  · exact .inl rfl
  · exact .inr rfl

/-- Settles O56: the access of the turn, inside and outside a running frame. -/
theorem hostReachesItsRasters : Obligations.HostReachesItsRasters := by
  intro s i v rest ts ht
  have access : ∀ {op : HostOp} {f : State → Outcome}, (∀ u, mustWait op u = false) →
      (∀ u, hostMove op u = .other (f u)) → s.hostq = op :: rest → step s = f (hostState ts rest s) :=
    fun hw hm hq => step_host_access ht hq hw hm
  have loadSrc := access (op := .loadSrc i) (fun _ => rfl) fun _ => rfl
  have storeSrc := access (op := .storeSrc i v) (fun _ => rfl) fun _ => rfl
  have loadDst := access (op := .loadDst i) (fun _ => rfl) fun _ => rfl
  have storeDst := access (op := .storeDst i v) (fun _ => rfl) fun _ => rfl
  refine ⟨loadSrc, fun hout => ⟨fun hq => ?_, fun hq => ?_, fun hq => ?_⟩,
    fun hin => ⟨fun hq => ?_, fun hq hm => ?_, fun hq => ?_⟩⟩
  · exact (storeSrc hq).trans (hostStoreSrc_outside (s := hostState ts rest s) hout v)
  · exact (loadDst hq).trans (hostLoadDst_outside (s := hostState ts rest s) hout)
  · exact (storeDst hq).trans (hostStoreDst_outside (s := hostState ts rest s) hout v)
  · obtain ⟨w, hw, hd⟩ := disturbSrc_cases i v (hostState ts rest s)
    exact ⟨w, hw, (storeSrc hq).trans ((hostStoreSrc_inside (s := hostState ts rest s) hin v).trans (congrArg _ hd))⟩
  · obtain ⟨r, hr⟩ := modeTransform_of_le hm s.params (pipeWord i s)
    refine ⟨_, r, hr, ?_, (loadDst hq).trans (hostLoadDst_inside (s := hostState ts rest s) hin)⟩
    obtain hu | hu := unsettledWord_cases i (hostState ts rest s)
    · exact .inl hu
    · exact .inr (hu.trans (frameResult_of_transform hr))
  · obtain ⟨kept, hk, hd⟩ := disturbDst_cases i v (hostState ts rest s)
    exact ⟨kept, hk, (storeDst hq).trans ((hostStoreDst_inside (s := hostState ts rest s) hin v).trans (congrArg _ hd))⟩

/-! ### One pixel a step (R113) -/

/-- What a step does to the progress of the frame: `PIX` stays, or it advances and decides the flags. -/
structure Progress (s t : State) : Prop where
  n : t.n = s.n
  turns : t.turns = s.turns.tail
  queue : t.hostq.length ≤ s.hostq.length
  config : SameConfiguration s t
  pix : t.pix = s.pix ∧ t.busy = true ∧ t.done = false ∨
    t.pix.toNat = s.pix.toNat + 1 ∧ t.busy = decide (t.pix ≠ s.n) ∧ t.done = decide (t.pix = s.n)

/-- `DONE` takes the place of `BUSY` with the last pixel. -/
theorem storePixel_flags {s : State} (hb : s.busy = true) (hd : s.done = false) (q : Pixel) :
    (storePixel q s).busy = decide (s.pix + 1#32 ≠ s.n) ∧ (storePixel q s).done = decide (s.pix + 1#32 = s.n) := by
  rw [storePixel_busy, storePixel_done, hb, hd]
  split
  · next h => simp [h]
  · next h => simp [h]

theorem sameConfiguration_settle (i : Index) {s t : State} (h : SameConfiguration s t) :
    SameConfiguration s (settle i t) := by
  refine h.trans ?_
  constructor <;> simp

theorem progress_of_busyMove {s t : State} (hi : Inv s) (hb : s.busy = true) (h : BusyMove s t) : Progress s t := by
  have hd := hi.notBoth hb
  cases h with
  | host ops rest reply k hq ha =>
    have hlen : rest.length ≤ s.hostq.length := by rw [hq, List.length_append]; omega
    exact ⟨rfl, rfl, hlen, sameConfiguration_hostMoved ops rest reply k s, .inl ⟨rfl, hb, hd⟩⟩
  | storeSrc i v w rest hq hn hw =>
    have hc : SameConfiguration s (srcDisturbed i v w rest s) := by constructor <;> rfl
    refine ⟨settle_n _ _, settle_turns _ _, ?_, sameConfiguration_settle i hc, .inl ⟨settle_pix _ _, ?_, ?_⟩⟩
    · rw [settle_hostq, hq]
      exact Nat.le_succ _
    · exact (settle_busy _ _).trans hb
    · exact (settle_done _ _).trans hd
  | storeDst i v kept rest hq hn hk =>
    have hc : SameConfiguration s (dstDisturbed i v kept rest s) := by constructor <;> rfl
    refine ⟨settle_n _ _, settle_turns _ _, ?_, sameConfiguration_settle i hc, .inl ⟨settle_pix _ _, ?_, ?_⟩⟩
    · rw [settle_hostq, hq]
      exact Nat.le_succ _
    · exact (settle_busy _ _).trans hb
    · exact (settle_done _ _).trans hd
  | pixel hp q v p o hT =>
    have hc : SameConfiguration s (withCache v p o (afterTurn s)) := by constructor <;> rfl
    have hflags := storePixel_flags (s := withCache v p o (afterTurn s)) hb hd q
    refine ⟨storePixel_n _ _, storePixel_turns _ _, ?_, hc.trans (sameConfiguration_storePixel q _), .inr ?_⟩
    · rw [storePixel_hostq]
      exact Nat.le_refl _
    · rw [storePixel_pix]
      exact ⟨toNat_succ_of_lt hp, hflags⟩

theorem progress_of_step {s t : State} (hi : Inv s) (hb : s.busy = true) (hr : s.turns.head? ≠ some .reset)
    (h : step s = .next t) : Progress s t := progress_of_busyMove hi hb (busyMove_of_step hb hr h)

/-- A running frame left to the pipe: nothing is pending and no turn is left. -/
structure PipeAlone (s : State) : Prop where
  inv : Inv s
  busy : s.busy = true
  hostq : s.hostq = []
  turns : s.turns = []

/-- Then a step is a pixel step (assumption 21). -/
theorem PipeAlone.step {s : State} (h : PipeAlone s) :
    ∃ t, Machine.step s = .next t ∧ t.n = s.n ∧ t.pix.toNat = s.pix.toNat + 1 ∧
      (t.pix ≠ s.n → PipeAlone t ∧ t.done = false) ∧ (t.pix = s.n → t.busy = false ∧ t.done = true) := by
  obtain ⟨i, hd⟩ := decodePixel_of_le h.inv.modeLegal
  obtain ⟨q, v, p, o, he, -⟩ := exec_pixel_of_inv h.inv h.busy hd
  have hs : Machine.step s = .next (storePixel q (withCache v p o s)) :=
    (((pipeTurnRunsThePixelOperation s h.busy).1 i hd).2 h.turns (.inl h.hostq)).trans he
  obtain ⟨hbusy, hdone⟩ := storePixel_flags (s := withCache v p o s) h.busy (h.inv.notBoth h.busy) q
  refine ⟨_, hs, storePixel_n _ _, ?_, fun hne => ?_, fun heq => ?_⟩
  · rw [storePixel_pix]
    exact toNat_succ_of_lt (h.inv.busyInside h.busy)
  · rw [storePixel_pix] at hne
    refine ⟨⟨inv_step h.inv hs, ?_, ?_, ?_⟩, ?_⟩
    · exact hbusy.trans (decide_eq_true hne)
    · exact (storePixel_hostq _ _).trans h.hostq
    · exact (storePixel_turns _ _).trans h.turns
    · exact hdone.trans (decide_eq_false hne)
  · rw [storePixel_pix] at heq
    exact ⟨hbusy.trans (decide_eq_false fun hne => hne heq), hdone.trans (decide_eq_true heq)⟩

theorem ne_of_toNat_lt {i n : Index} (h : i.toNat < n.toNat) : i ≠ n := fun he => absurd h (he ▸ Nat.lt_irrefl _)

/-- Before the last pixel the frame still runs. -/
theorem PipeAlone.running {s : State} (h : PipeAlone s) {k : Nat} (hk : s.pix.toNat + k < s.n.toNat) :
    ∃ u, steps k s = .next u ∧ u.busy = true ∧ u.done = false ∧ u.pix.toNat = s.pix.toNat + k := by
  induction k generalizing s with
  | zero => exact ⟨s, rfl, h.busy, h.inv.notBoth h.busy, rfl⟩
  | succ k ih =>
    obtain ⟨t, hs, hn, hpix, hgoes, -⟩ := h.step
    obtain ⟨ht, -⟩ := hgoes (ne_of_toNat_lt (by omega))
    obtain ⟨u, hu, hbusy, hdone, hupix⟩ := ih ht (by rw [hn]; omega)
    exact ⟨u, (steps_succ_of_step hs).trans hu, hbusy, hdone, by omega⟩

/-- With the last pixel it ends. -/
theorem PipeAlone.ends {s : State} (h : PipeAlone s) {k : Nat} (hk : s.pix.toNat + k = s.n.toNat) :
    ∃ t, steps k s = .next t ∧ t.busy = false ∧ t.done = true ∧ t.pix = s.n := by
  induction k generalizing s with
  | zero => exact absurd (BitVec.lt_def.mp (h.inv.busyInside h.busy)) (by omega)
  | succ k ih =>
    obtain ⟨t, hs, hn, hpix, hgoes, hends⟩ := h.step
    by_cases hlast : t.pix = s.n
    · obtain ⟨hbusy, hdone⟩ := hends hlast
      obtain rfl : k = 0 := by have := congrArg BitVec.toNat hlast; omega
      exact ⟨t, (steps_succ_of_step hs).trans rfl, hbusy, hdone, hlast⟩
    · obtain ⟨u, hu, hbusy, hdone, hupix⟩ := ih (hgoes hlast).1 (by rw [hn]; omega)
      exact ⟨u, (steps_succ_of_step hs).trans hu, hbusy, hdone, hn ▸ hupix⟩

/-- Settles O50: `Progress` for a step under any order, and the run of a pipe left alone. -/
theorem frameTakesOneStepPerPixel : Obligations.FrameTakesOneStepPerPixel := by
  refine ⟨fun s t hi hb hr h => ?_, fun s hi hb hq ht => ?_⟩
  · have hp := progress_of_step hi hb hr h
    exact ⟨hp.n, hp.pix⟩
  · have alone : PipeAlone s := ⟨hi, hb, hq, ht⟩
    have hlt := BitVec.lt_def.mp (hi.busyInside hb)
    exact ⟨fun k => alone.running, alone.ends (by omega)⟩

/-! ### Every frame ends (R170) -/

/-- What a frame has before it: turns, pending operations, and pixels. -/
def workLeft (s : State) : Nat := s.turns.length + s.hostq.length + (s.n.toNat - s.pix.toNat)

theorem mustWait_congr (op : HostOp) {s t : State} (h : t.busy = s.busy) : mustWait op t = mustWait op s := by
  cases op with
  | ctrlWrite w => exact h
  | _ => rfl

/-- A host that is ready has an operation that need not wait. -/
theorem hostReady_true {s : State} (h : hostReady s = true) :
    ∃ op rest, s.hostq = op :: rest ∧ mustWait op s = false := by
  match hq : s.hostq with
  | [] => exact absurd ((hostReady_nil hq).symm.trans h) (by decide)
  | op :: rest => exact ⟨op, rest, rfl, by simpa [hostReady_cons hq] using h⟩

/-- While `BUSY = 1` an operation of the host that need not wait touches no register. -/
theorem byHost_hostMove {op : HostOp} {s t : State} (hb : s.busy = true) (hw : mustWait op s = false)
    (h : (hostMove op s).answers t) : byHost s t := by
  cases op with
  | ctrlWrite w => exact absurd (hb.symm.trans hw) (by decide)
  | ctrlRead a => exact byHost_decodeRead h
  | loadSrc i => exact byHost_hostLoadSrc h
  | storeSrc i v => exact byHost_hostStoreSrc h
  | loadDst i => exact byHost_hostLoadDst h
  | storeDst i v => exact byHost_hostStoreDst h

/-- With no turn left, a step of a running frame takes an operation or a pixel (assumption 21). -/
theorem workLeft_lt_of_no_turn {s t : State} (hi : Inv s) (hb : s.busy = true) (ht : s.turns = [])
    (h : step s = .next t) : workLeft t < workLeft s := by
  have hlt := BitVec.lt_def.mp (hi.busyInside hb)
  rw [step_eq_next] at h
  cases hr : hostReady s with
  | true =>
    obtain ⟨op, rest, hq, hw⟩ := hostReady_true hr
    rw [fetch_ready ht hr, hostTurn_moves hq hw] at h
    have hk := byHost_hostMove (s := { s with hostq := rest }) hb ((mustWait_congr op rfl).trans hw) h
    have hturns : t.turns = s.turns := hk.turns
    have hrest : t.hostq = rest := hk.hostq
    have hn : t.n = s.n := hk.n
    have hpix : t.pix = s.pix := hk.pix
    rw [workLeft, workLeft, hturns, hrest, hn, hpix, hq, List.length_cons]
    omega
  | false =>
    obtain ⟨i, hd⟩ := decodePixel_of_le hi.modeLegal
    obtain ⟨q, v, p, o, he, -⟩ := exec_pixel_of_inv hi hb hd
    rw [fetch_not_ready ht hr, pipeTurn_busy hb] at h
    simp only [Fetched.answers, runCode, decode, hd] at h
    injection he.symm.trans h with h
    have hpix : (s.pix + 1#32).toNat = s.pix.toNat + 1 := toNat_succ_of_lt (hi.busyInside hb)
    rw [← h, workLeft, workLeft, storePixel_turns, storePixel_hostq, storePixel_n, storePixel_pix]
    simp only [withCache, hpix]
    omega

theorem workLeft_lt_of_step {s t : State} (hi : Inv s) (hb : s.busy = true) (hr : s.turns.head? ≠ some .reset)
    (h : step s = .next t) : workLeft t < workLeft s := by
  match hts : s.turns with
  | [] => exact workLeft_lt_of_no_turn hi hb hts h
  | turn :: ts =>
    obtain ⟨hn, hturns, hqueue, -, hpix⟩ := progress_of_step hi hb hr h
    have hle : s.pix.toNat ≤ t.pix.toNat := by
      obtain ⟨heq, -⟩ | ⟨hnext, -⟩ := hpix
      · exact heq ▸ Nat.le_refl _
      · exact hnext ▸ Nat.le_succ _
    rw [workLeft, workLeft, hn, hturns, hts, List.tail_cons, List.length_cons]
    omega

theorem head_ne_reset {ts : List Turn} (h : Turn.reset ∉ ts) : ts.head? ≠ some .reset :=
  fun hr => h (List.mem_of_mem_head? hr)

/-- The frame ends within `workLeft` steps: each step of it leaves less. -/
theorem frame_ends {w : Nat} {s : State} (hw : workLeft s ≤ w) (hi : Inv s) (hb : s.busy = true)
    (hr : Turn.reset ∉ s.turns) : ∃ k t, k ≤ w ∧ steps k s = .next t ∧ t.done = true ∧ t.busy = false := by
  induction w generalizing s with
  | zero =>
    obtain ⟨t, ht⟩ := legalStatesAlwaysStep s hi
    have := workLeft_lt_of_step hi hb (head_ne_reset hr) ht
    omega
  | succ w ih =>
    obtain ⟨t, ht⟩ := legalStatesAlwaysStep s hi
    have hless := workLeft_lt_of_step hi hb (head_ne_reset hr) ht
    obtain ⟨-, hturns, -, -, hpix⟩ := progress_of_step hi hb (head_ne_reset hr) ht
    cases htb : t.busy with
    | true =>
      have hno : Turn.reset ∉ t.turns := fun hmem => hr (List.mem_of_mem_tail (hturns ▸ hmem))
      obtain ⟨k, u, hk, hu, hend⟩ := ih (by omega) (inv_step hi ht) htb hno
      exact ⟨k + 1, u, by omega, (steps_succ_of_step ht).trans hu, hend⟩
    | false =>
      obtain ⟨-, hbusy, -⟩ | ⟨-, hbusy, hdone⟩ := hpix
      · exact absurd (htb.symm.trans hbusy) (by decide)
      · have hlast : t.pix = s.n := by simpa [htb] using hbusy.symm
        exact ⟨1, t, by omega, (steps_succ_of_step ht).trans rfl, hdone.trans (decide_eq_true hlast), htb⟩

/-- Settles O51: the bound is `workLeft`. -/
theorem everyFrameEnds : Obligations.EveryFrameEnds := fun s hi hb hr => frame_ends (Nat.le_refl (workLeft s)) hi hb hr

end Sys2Proof.Machine
end

section
/-! PROOFS. The result of a frame into which the host stores (R160, R161, R115; assumption 13): what holds at every
state of it, as far as the host has got with its operations. -/

namespace Sys2Proof.Machine

/-- The state `t` of a frame that has been started in `s`, with no reset, after the host has issued `ops`. -/
structure DisturbedRun (s t : State) (ops : List HostOp) : Prop where
  inv : Inv t
  noReset : Turn.reset ∉ t.turns
  config : SameConfiguration s t
  count : t.n = pixelCount s.srcW s.srcH
  status : t.done = !t.busy
  written : prefixDone t
  issued : s.hostq = ops ++ t.hostq
  source : t.src = srcAfter ops s.src
  /-- Beyond the frame the destination is the host's. -/
  beyond : ∀ i : Index, ¬ i < t.n → memRead t.dst i = memRead (dstAfter ops s.dst) i
  /-- R160: the pipe takes the word of before or one that the host has stored there. -/
  taken : ∀ i : Index, i < t.n → pipeWord i t = memRead s.src i ∨ .storeSrc i (pipeWord i t) ∈ ops
  /-- R161: the pipe's word stays, or one that the host has stored there. -/
  kept : ∀ i : Index, i < t.n → ∀ q, settledWord i q t = q ∨ .storeDst i (settledWord i q t) ∈ ops

theorem disturbedRun_startFrame {s : State} (hi : Inv s) (hb : s.busy = false) (hw : s.srcW = s.dstW)
    (hh : s.srcH = s.dstH) (hr : Turn.reset ∉ s.turns) : DisturbedRun s (startFrame s) [] := by
  have hinv := inv_startFrame hi hb hw hh
  have hconfig := sameConfiguration_startFrame s
  obtain ⟨hn, h⟩ | ⟨-, h⟩ := startFrame_cases s
  · rw [h] at hinv hconfig ⊢
    exact ⟨hinv, hr, hconfig, hn.symm, by rw [hb]; rfl, fun _ hlt => absurd hlt BitVec.not_lt_zero, rfl, rfl,
      fun _ _ => rfl, fun _ hlt => absurd hlt BitVec.not_lt_zero, fun _ hlt => absurd hlt BitVec.not_lt_zero⟩
  · rw [h] at hinv hconfig ⊢
    exact ⟨hinv, hr, hconfig, rfl, rfl, fun _ hlt => absurd hlt BitVec.not_lt_zero, rfl, rfl, fun _ _ => rfl,
      fun _ _ => .inl rfl, fun _ _ _ => .inl rfl⟩

/-! ### The part of a step that does not depend on who moves -/

/-- In a running frame `DONE` is still 0, and after the step it is again the opposite of `BUSY`. -/
theorem Progress.status {s t : State} (h : Progress s t) : t.done = !t.busy := by
  obtain ⟨-, hbusy, hdone⟩ | ⟨-, hbusy, hdone⟩ := h.pix
  · rw [hbusy, hdone]
    rfl
  · simp [hbusy, hdone]

/-- What is left to show of a step is what it does to the words, with `more` the operations it issues. -/
theorem DisturbedRun.step {s t u : State} {ops : List HostOp} (r : DisturbedRun s t ops) (hb : t.busy = true)
    (hm : BusyMove t u) (hinv : Inv u) {more : List HostOp} (hq : t.hostq = more ++ u.hostq)
    (hsrc : u.src = srcAfter more t.src)
    (hbeyond : ∀ i : Index, ¬ i < t.n → memRead u.dst i = memRead (dstAfter more t.dst) i)
    (htaken : ∀ i : Index, i < t.n → pipeWord i u = pipeWord i t ∨ .storeSrc i (pipeWord i u) ∈ more)
    (hkept : ∀ i : Index, i < t.n → ∀ q, settledWord i q u = settledWord i q t ∨
      .storeDst i (settledWord i q u) ∈ more) (hs : Memory.wf s.dst = true) : DisturbedRun s u (ops ++ more) := by
  have hp := progress_of_busyMove r.inv hb hm
  constructor
  case inv => exact hinv
  case noReset => exact fun h => r.noReset (List.mem_of_mem_tail (hp.turns ▸ h))
  case config => exact r.config.trans hp.config
  case count => exact hp.n.trans r.count
  case status => exact hp.status
  case written => exact prefixDone_busyMove r.inv hb r.written hm
  case issued => rw [r.issued, hq, List.append_assoc]
  case source => rw [hsrc, r.source, srcAfter_append]
  case beyond =>
    intro i hi
    rw [hp.n] at hi
    rw [hbeyond i hi, dstAfter_append]
    exact memRead_dstAfter_congr more r.inv.dstCanonical (wf_dstAfter ops hs) (r.beyond i hi)
  case taken =>
    intro i hi
    rw [hp.n] at hi
    obtain h | h := htaken i hi
    · rw [h]
      exact (r.taken i hi).imp_right (List.mem_append_left more)
    · exact .inr (List.mem_append_right ops h)
  case kept =>
    intro i hi q
    rw [hp.n] at hi
    obtain h | h := hkept i hi q
    · rw [h]
      exact (r.kept i hi q).imp_right (List.mem_append_left more)
    · exact .inr (List.mem_append_right ops h)

/-! ### The words after each kind of move -/

theorem settledWord_dstDisturbed_same {i : Index} {v : Pixel} {kept : List Cell} {s : State}
    (hk : kept = s.dstKept ∨ kept = (i.toNat, v) :: s.dstKept) (rest : List HostOp) (q : Pixel) :
    settledWord i q (dstDisturbed i v kept rest s) = settledWord i q s ∨
      settledWord i q (dstDisturbed i v kept rest s) = v := by
  obtain rfl | rfl := hk
  · exact .inl rfl
  · exact .inr (overlay_cons_same _ _ _ _)

theorem disturbedRun_busyMove {s t u : State} {ops : List HostOp} (hs : Inv s) (r : DisturbedRun s t ops)
    (hb : t.busy = true) (hinv : Inv u) (hm : BusyMove t u) : ∃ ops', DisturbedRun s u ops' := by
  have hcanon := hs.dstCanonical
  have hstep := hm
  cases hm with
  | host more rest reply k hq ha =>
    exact ⟨_, r.step hb hstep hinv (more := more) hq rfl (fun _ _ => rfl)
      (fun i hi => .inl (pipeWord_hostMoved ha hi rest reply k)) (fun _ _ _ => .inl rfl) hcanon⟩
  | storeSrc i v w rest hq hn hw =>
    refine ⟨_, r.step hb hstep hinv (more := [.storeSrc i v]) ?_ (settle_src _ _) (fun j hj => ?_) (fun j _ => ?_)
      (fun j _ q => .inl (settledWord_settle i j q _)) hcanon⟩
    · rw [settle_hostq]
      exact hq
    · exact (settle_dst_frame i (srcDisturbed i v w rest t)).1 j fun hji => hj (hji ▸ hn)
    · rw [pipeWord_settle]
      by_cases hji : j = i
      · rw [hji, pipeWord_srcDisturbed_same]
        obtain rfl | rfl := hw
        · exact .inr (List.mem_singleton.mpr rfl)
        · exact .inl rfl
      · exact .inl (pipeWord_srcDisturbed_other hji v w rest t)
  | storeDst i v kept rest hq hn hk =>
    refine ⟨_, r.step hb hstep hinv (more := [.storeDst i v]) ?_ (settle_src _ _) (fun j hj => ?_)
      (fun j _ => .inl (pipeWord_settle i j _)) (fun j _ q => ?_) hcanon⟩
    · rw [settle_hostq]
      exact hq
    · exact (settle_dst_frame i (dstDisturbed i v kept rest t)).1 j fun hji => hj (hji ▸ hn)
    · rw [settledWord_settle]
      by_cases hji : j = i
      · rw [hji]
        obtain h | h := settledWord_dstDisturbed_same hk rest q
        · exact .inl h
        · exact .inr (by rw [h]; exact List.mem_singleton.mpr rfl)
      · exact .inl (settledWord_dstDisturbed_other hji hk rest q)
  | pixel hp q v p o hT =>
    refine ⟨_, r.step hb hstep hinv (more := []) ?_ (storePixel_src _ _) (fun j hj => ?_)
      (fun j _ => .inl (pipeWord_storePixel j q _)) (fun j _ q' => .inl (settledWord_storePixel j q' q _)) hcanon⟩
    · rw [storePixel_hostq]
      rfl
    · rw [storePixel_dst]
      exact memRead_memWrite_other _ _ fun hji => hj (hji ▸ hp)

theorem disturbedRun_step {s t u : State} (hs : Inv s) (r : ∃ ops, DisturbedRun s t ops) (hd : t.done = false)
    (h : step t = .next u) : ∃ ops, DisturbedRun s u ops := by
  obtain ⟨ops, r⟩ := r
  have hb : t.busy = true := by simpa [hd] using r.status
  exact disturbedRun_busyMove hs r hb (inv_step r.inv h) (busyMove_of_step hb (head_ne_reset r.noReset) h)

/-! ### The end of the frame -/

/-- R160, R161: at `DONE` each word of the frame is the transform of a word the pipe may have taken, or the host's. -/
theorem DisturbedRun.result {s t : State} {ops : List HostOp} (r : DisturbedRun s t ops) (hp : t.pix = t.n) {i : Index}
    (hi : i < t.n) :
    ∃ p q, (p = memRead s.src i ∨ .storeSrc i p ∈ ops) ∧ modeTransform s.params s.mode p = some q ∧
      (memRead t.dst i = q ∨ .storeDst i (memRead t.dst i) ∈ ops) := by
  obtain ⟨q, hq, hdst⟩ := r.written i (hp ▸ hi)
  rw [r.config.params, r.config.mode] at hq
  rw [hdst]
  exact ⟨pipeWord i t, q, r.taken i hi, hq, r.kept i hi q⟩

/-- Settles O48: `DisturbedRun` holds when the frame starts and is kept by every step up to the first `DONE`. -/
theorem resultOfADisturbedFrame : Obligations.ResultOfADisturbedFrame := by
  intro s x hi hb hw hh hr
  refine ⟨startFrame s, exec_transform_idle hb hw hh x, fun k t hk hd hfirst => ?_⟩
  obtain ⟨ops, r⟩ : ∃ ops, DisturbedRun s t ops :=
    holds_at_first_done (fun _ _ r hd => disturbedRun_step hi r hd) hk hfirst
      ⟨[], disturbedRun_startFrame hi hb hw hh hr⟩
  have hbusy : t.busy = false := by simpa [hd] using r.status
  have hpix : t.pix = t.n := r.inv.idleAtEnd hbusy
  have hn : t.n.toNat = s.srcW.toNat * s.srcH.toNat := by rw [r.count, toNat_pixelCount]
  have c := r.config
  refine ⟨⟨ops, r.issued, r.source, fun i hge => r.beyond i fun h => ?_, fun i hlt => r.result hpix ?_⟩, c.mode, c.srcW,
    c.srcH, c.dstW, c.dstH, c.errMode, c.errDim, hbusy, hpix ▸ hn⟩
  · exact Nat.not_lt.mpr hge (hn ▸ BitVec.lt_def.mp h)
  · exact BitVec.lt_def.mpr (hn ▸ hlt)

end Sys2Proof.Machine
end

section
/-! PROOFS. The previous-pixel cache is invisible, and so are the driver form and its line buffer (R109, R22, R114): a
simulation between two legal states that differ in nothing else.

One relation serves both halves. `Twin A B` lets two states differ in all of it; under `A` they agree on the driver form
and the line buffer, under `B` on the cache. -/

namespace Sys2Proof.Machine

/-! ### The hidden part of a state -/

/-- The cache, the driver form and the line buffer. -/
structure Hidden where
  driver : Driver
  line : List Pixel
  prevValid : Bool
  prevIn : Pixel
  prevOut : Pixel

def State.hidden (s : State) : Hidden where
  driver := s.params.driver
  line := s.line
  prevValid := s.prevValid
  prevIn := s.prevIn
  prevOut := s.prevOut

def State.withHidden (h : Hidden) (s : State) : State :=
  { s with
    params := { s.params with driver := h.driver }, line := h.line, prevValid := h.prevValid, prevIn := h.prevIn,
    prevOut := h.prevOut }

/-- `s'` has another hidden part than `s`, equal in the driver under `A` and in the cache under `B`. -/
def Twin (A B : Prop) (s s' : State) : Prop :=
  ∃ h : Hidden, s' = s.withHidden h ∧ (A → h.driver = s.hidden.driver ∧ h.line = s.hidden.line) ∧
    (B → h.prevValid = s.hidden.prevValid ∧ h.prevIn = s.hidden.prevIn ∧ h.prevOut = s.hidden.prevOut)

theorem twin_of_sameButCache {s s' : State} (h : sameButCache s s') : Twin True False s s' :=
  ⟨⟨s.params.driver, s.line, s'.prevValid, s'.prevIn, s'.prevOut⟩, h, fun _ => ⟨rfl, rfl⟩, False.elim⟩

theorem sameButCache_of_twin {s s' : State} (h : Twin True False s s') : sameButCache s s' := by
  obtain ⟨⟨d, l, v, p, o⟩, rfl, hA, -⟩ := h
  obtain ⟨rfl, rfl⟩ : d = s.params.driver ∧ l = s.line := hA trivial
  rfl

theorem twin_of_sameButDriver {s s' : State} (h : sameButDriver s s') : Twin False True s s' :=
  ⟨⟨s'.params.driver, s'.line, s.prevValid, s.prevIn, s.prevOut⟩, h, False.elim, fun _ => ⟨rfl, rfl, rfl⟩⟩

theorem sameButDriver_of_twin {s s' : State} (h : Twin False True s s') : sameButDriver s s' := by
  obtain ⟨⟨d, l, v, p, o⟩, rfl, -, hB⟩ := h
  obtain ⟨rfl, rfl, rfl⟩ : v = s.prevValid ∧ p = s.prevIn ∧ o = s.prevOut := hB trivial
  rfl

/-! ### Updates that neither read nor write the hidden part -/

/-- The update commutes with any change of the hidden part, and leaves it. -/
def Blind (f : State → State) : Prop :=
  ∀ s : State, (f s).hidden = s.hidden ∧ ∀ h, f (s.withHidden h) = (f s).withHidden h

theorem Blind.twin {f : State → State} (hf : Blind f) {A B : Prop} {s s' : State} (h : Twin A B s s') :
    Twin A B (f s) (f s') := by
  obtain ⟨hid, rfl, hA, hB⟩ := h
  obtain ⟨hkeep, hcomm⟩ := hf s
  exact ⟨hid, hcomm hid, hkeep ▸ hA, hkeep ▸ hB⟩

theorem blind_answer {v : State → Word} (hv : ∀ s h, v (State.withHidden h s) = v s) :
    Blind (fun s => answer (v s) s) :=
  fun s => ⟨rfl, fun h => by
    show answer (v (s.withHidden h)) (s.withHidden h) = _
    rw [hv]
    rfl⟩

theorem blind_selectMode (d : Word) : Blind (selectMode d) := by
  intro s
  unfold selectMode
  split
  · exact ⟨rfl, fun _ => rfl⟩
  · exact ⟨rfl, fun _ => rfl⟩

/-- The frame's result does not depend on the driver form: the transform does not. -/
theorem frameResult_withHidden (i : Index) (s : State) (h : Hidden) :
    frameResult i (s.withHidden h) = frameResult i s := rfl

theorem blind_settle (i : Index) : Blind (settle i) := by
  intro s
  constructor
  · obtain ⟨-, h⟩ | ⟨-, h⟩ := settle_cases i s
    · rw [h]
      rfl
    · rw [h]
  · intro hid
    by_cases hi : i < s.pix
    · rw [settle, settle, if_pos hi, if_pos (show i < (s.withHidden hid).pix from hi), frameResult_withHidden]
      rfl
    · rw [settle, settle, if_neg hi, if_neg (show ¬ i < (s.withHidden hid).pix from hi)]

theorem Blind.comp {f g : State → State} (hf : Blind f) (hg : Blind g) : Blind (fun s => f (g s)) := by
  intro s
  obtain ⟨hgk, hgc⟩ := hg s
  obtain ⟨hfk, hfc⟩ := hf (g s)
  refine ⟨hfk.trans hgk, fun h => ?_⟩
  show f (g (s.withHidden h)) = _
  rw [hgc, hfc]

theorem blind_disturbSrc (i : Index) (v : Pixel) : Blind (disturbSrc i v) :=
  (blind_settle i).comp (g := fun s => { s with
    src := memWrite s.src i v,
    srcTaken := (i.toNat, if Config.freeChoice s.freeIdx then v else pipeWord i s) :: s.srcTaken,
    freeIdx := s.freeIdx + 1 }) fun _ => ⟨rfl, fun _ => rfl⟩

theorem blind_disturbDst (i : Index) (v : Pixel) : Blind (disturbDst i v) :=
  (blind_settle i).comp (g := fun s => { s with
    dst := memWrite s.dst i v, dstBefore := memWrite s.dstBefore i v,
    dstKept := if Config.freeChoice s.freeIdx || s.dstKept.any (fun c => decide (c.1 = i.toNat))
      then (i.toNat, v) :: s.dstKept else s.dstKept,
    freeIdx := s.freeIdx + 1 }) fun _ => ⟨rfl, fun _ => rfl⟩

/-! ### Updates that write the hidden part -/

theorem twin_startFrame {A B : Prop} {s s' : State} (h : Twin A B s s') : Twin A B (startFrame s) (startFrame s') := by
  obtain ⟨hid, rfl, hA, hB⟩ := h
  by_cases hn : pixelCount s.srcW s.srcH = 0#32
  · rw [startFrame_empty hn, startFrame_empty (s := s.withHidden hid) hn]
    exact ⟨{ hid with prevValid := false }, rfl, hA, fun b => ⟨rfl, (hB b).2⟩⟩
  · rw [startFrame_running hn, startFrame_running (s := s.withHidden hid) hn]
    exact ⟨{ hid with prevValid := false, line := [] }, rfl, fun a => ⟨(hA a).1, rfl⟩, fun b => ⟨rfl, (hB b).2⟩⟩

theorem twin_transformCommand {A B : Prop} {s s' : State} (h : Twin A B s s') :
    Twin A B (transformCommand s) (transformCommand s') := by
  by_cases hne : s.srcW ≠ s.dstW ∨ s.srcH ≠ s.dstH
  · obtain ⟨hid, rfl, hA, hB⟩ := h
    rw [transformCommand_raises hne, transformCommand_raises (s := s.withHidden hid) hne]
    exact ⟨hid, rfl, hA, hB⟩
  · have ht : transformCommand s' = startFrame s' := by
      obtain ⟨hid, rfl, -, -⟩ := h
      exact transformCommand_starts (s := s.withHidden hid) hne
    rw [transformCommand_starts hne, ht]
    exact twin_startFrame h

theorem twin_resetStep {A B : Prop} {s s' : State} (h : Twin A B s s') : Twin A B (resetStep s) (resetStep s') := by
  obtain ⟨hid, rfl, hA, -⟩ := h
  exact ⟨⟨hid.driver, [], false, 0#32, 0#32⟩, rfl, fun a => ⟨(hA a).1, rfl⟩, fun _ => ⟨rfl, rfl, rfl⟩⟩

theorem twin_cacheFilled (p q : Pixel) {A B : Prop} {s s' : State} (h : Twin A B s s') :
    Twin A B (cacheFilled p q s) (cacheFilled p q s') := by
  obtain ⟨hid, rfl, hA, -⟩ := h
  exact ⟨{ hid with prevValid := true, prevIn := p, prevOut := q }, rfl, hA, fun _ => ⟨rfl, rfl, rfl⟩⟩

/-- The words at hand are the driver form's and the line buffer's affair. -/
theorem wordsAtHand_withHidden {s : State} {h : Hidden} (hd : h.driver = s.hidden.driver)
    (hl : h.line = s.hidden.line) :
    wordsAtHand (s.withHidden h) = wordsAtHand s := by
  have hdriver : (s.withHidden h).params.driver = s.params.driver := hd
  have hline : (s.withHidden h).line = s.line := hl
  rw [wordsAtHand, wordsAtHand, hdriver, hline]
  rfl

theorem hidden_storePixel (q : Pixel) (s : State) :
    (storePixel q s).hidden = { s.hidden with line := (wordsAtHand s).tail } := by
  obtain ⟨-, h⟩ | ⟨-, h⟩ := storePixel_cases q s <;> rw [h] <;> rfl

theorem twin_storePixel (q : Pixel) {A B : Prop} {s s' : State} (h : Twin A B s s') :
    Twin A B (storePixel q s) (storePixel q s') := by
  obtain ⟨hid, rfl, hA, hB⟩ := h
  refine ⟨{ hid with line := (wordsAtHand (s.withHidden hid)).tail }, ?_, fun a => ?_, fun b => ?_⟩
  · by_cases hn : s.pix + 1#32 = s.n
    · rw [storePixel, storePixel, if_pos hn, if_pos (show (s.withHidden hid).pix + 1#32 = (s.withHidden hid).n from hn)]
      rfl
    · rw [storePixel, storePixel, if_neg hn,
        if_neg (show ¬ (s.withHidden hid).pix + 1#32 = (s.withHidden hid).n from hn)]
      rfl
  · obtain ⟨hd, hl⟩ := hA a
    rw [hidden_storePixel]
    exact ⟨hd, by rw [wordsAtHand_withHidden hd hl]⟩
  · rw [hidden_storePixel]
    exact hB b

/-! ### Operations -/

/-- Both outcomes are next states, and twins. -/
def TwinOutcome (A B : Prop) (o o' : Outcome) : Prop := ∃ t t', o = .next t ∧ o' = .next t' ∧ Twin A B t t'

theorem Twin.outcome {A B : Prop} {t t' : State} (h : Twin A B t t') : TwinOutcome A B (.next t) (.next t') :=
  ⟨t, t', rfl, rfl, h⟩

theorem Twin.busy {A B : Prop} {s s' : State} (h : Twin A B s s') : s'.busy = s.busy := by
  obtain ⟨_, rfl, -, -⟩ := h
  rfl

theorem Twin.mode {A B : Prop} {s s' : State} (h : Twin A B s s') : s'.mode = s.mode := by
  obtain ⟨_, rfl, -, -⟩ := h
  rfl

theorem twin_acceptWrite {A B : Prop} {f : State → State} {s s' : State} (h : Twin A B s s')
    (hf : Twin A B (f s) (f s')) : TwinOutcome A B (acceptWrite f s) (acceptWrite f s') := by
  cases hb : s.busy with
  | true =>
    rw [acceptWrite_busy f hb, acceptWrite_busy f (h.busy.trans hb)]
    exact h.outcome
  | false =>
    rw [acceptWrite_idle f hb, acceptWrite_idle f (h.busy.trans hb)]
    exact hf.outcome

theorem twin_exec_write {A B : Prop} {i : Instr} (hi : i.isWrite = true) {s s' : State} (h : Twin A B s s') :
    TwinOutcome A B (exec i s) (exec i s') := by
  cases i with
  | selectMode d => exact twin_acceptWrite h ((blind_selectMode d).twin h)
  | setSrcDim a b => exact twin_acceptWrite h (Blind.twin (f := setSrcDim a b) (fun _ => ⟨rfl, fun _ => rfl⟩) h)
  | setDstDim a b => exact twin_acceptWrite h (Blind.twin (f := setDstDim a b) (fun _ => ⟨rfl, fun _ => rfl⟩) h)
  | transform x => exact twin_acceptWrite h (twin_transformCommand h)
  | ctrlNop x => exact twin_acceptWrite h h
  | wrIgnored a x => exact twin_acceptWrite h h
  | _ => exact absurd hi Bool.false_ne_true

/-- No control read shows the hidden part. -/
theorem twin_exec_decodeRead {A B : Prop} (a : BitVec 3) {s s' : State} (h : Twin A B s s') :
    TwinOutcome A B (exec (decodeRead a) s) (exec (decodeRead a) s') := by
  have read : ∀ v : State → Word, (∀ s h, v (State.withHidden h s) = v s) →
      TwinOutcome A B (.next (answer (v s) s)) (.next (answer (v s') s')) := fun v hv =>
    ((blind_answer hv).twin h).outcome
  unfold decodeRead
  split_ifs
  · exact read (fun s => s.mode.setWidth 32) fun _ _ => rfl
  · exact read (fun s => dimWord s.srcH s.srcW) fun _ _ => rfl
  · exact read (fun s => dimWord s.dstH s.dstW) fun _ _ => rfl
  · exact read (fun _ => 0#32) fun _ _ => rfl
  · exact read statusWord fun _ _ => rfl
  · exact read (fun _ => 0#32) fun _ _ => rfl
  · exact read (fun _ => 0#32) fun _ _ => rfl

/-- The pixel step of a legal state: the cache is filled in the filter modes, hit or miss, and its pair is right. -/
theorem exec_pixel_exact {m : BitVec 3} {i : Instr} (hd : decodePixel m = .ok i) :
    (∀ s : State, Inv s → s.busy = true → s.mode = m → exec i s = .next (storePixel (pipeWord s.pix s) s)) ∨
      ∃ f : Params → Pixel → Pixel, (∀ ps p, modeTransform ps m p = some (f ps p)) ∧
        ∀ s : State, Inv s → s.busy = true → s.mode = m → exec i s = .next (storePixel (f s.params (pipeWord s.pix s))
          (cacheFilled (pipeWord s.pix s) (f s.params (pipeWord s.pix s)) s)) := by
  obtain ⟨-, rfl, -⟩ | ⟨f, hf, hT⟩ := decodePixel_cases hd
  · refine .inl fun s hi hb _ => ?_
    rw [exec_pixNormal_of_busy hb (hi.busyInside hb), takenWord_eq_pipeWord hi hb]
  · refine .inr ⟨f, hT, fun s hi hb hm => ?_⟩
    rw [exec_filter_of_busy hf hb (hi.busyInside hb), filterPixel, takenWord_eq_pipeWord hi hb,
      filterResult_of_cacheRight (hm ▸ hT s.params) (hi.cacheRight hb)]

theorem twin_exec_pixel {A B : Prop} {i : Instr} {s s' : State} (hi : Inv s) (hi' : Inv s') (hb : s.busy = true)
    (hd : decodePixel s.mode = .ok i) (h : Twin A B s s') : TwinOutcome A B (exec i s) (exec i s') := by
  have hb' : s'.busy = true := h.busy.trans hb
  have hw' : pipeWord s'.pix s' = pipeWord s.pix s := by
    obtain ⟨_, rfl, -, -⟩ := h
    rfl
  obtain hn | ⟨f, hT, hf⟩ := exec_pixel_exact hd
  · rw [hn s hi hb rfl, hn s' hi' hb' h.mode, hw']
    exact (twin_storePixel _ h).outcome
  · have hf' : f s'.params = f s.params := by
      obtain ⟨hid, rfl, -, -⟩ := h
      funext p
      refine Option.some.inj ((hT _ p).symm.trans ?_)
      rw [← hT s.params p]
      exact modeTransform_driver s.params hid.driver s.mode p
    rw [hf s hi hb rfl, hf s' hi' hb' h.mode, hw', hf']
    exact (twin_storePixel _ (twin_cacheFilled _ _ h)).outcome

/-! ### The host's accesses -/

theorem Twin.inRunningFrame {A B : Prop} {s s' : State} (h : Twin A B s s') (i : Index) :
    inRunningFrame i s' = inRunningFrame i s := by
  obtain ⟨_, rfl, -, -⟩ := h
  rfl

theorem twin_hostLoadDst (i : Index) {A B : Prop} {s s' : State} (h : Twin A B s s') :
    TwinOutcome A B (hostLoadDst i s) (hostLoadDst i s') := by
  have inside : Blind (fun s => answer (unsettledWord i s) { s with freeIdx := s.freeIdx + 1 }) :=
    fun _ => ⟨rfl, fun _ => rfl⟩
  have outside : Blind (fun s => answer (memRead s.dst i) s) := fun _ => ⟨rfl, fun _ => rfl⟩
  unfold hostLoadDst
  rw [h.inRunningFrame i]
  split
  · exact (inside.twin h).outcome
  · exact (outside.twin h).outcome

theorem twin_hostStoreSrc (i : Index) (v : Pixel) {A B : Prop} {s s' : State} (h : Twin A B s s') :
    TwinOutcome A B (hostStoreSrc i v s) (hostStoreSrc i v s') := by
  have outside : Blind (fun s => { s with src := memWrite s.src i v }) := fun _ => ⟨rfl, fun _ => rfl⟩
  unfold hostStoreSrc
  rw [h.inRunningFrame i]
  split
  · exact ((blind_disturbSrc i v).twin h).outcome
  · exact (outside.twin h).outcome

theorem twin_hostStoreDst (i : Index) (v : Pixel) {A B : Prop} {s s' : State} (h : Twin A B s s') :
    TwinOutcome A B (hostStoreDst i v s) (hostStoreDst i v s') := by
  have outside : Blind (fun s => { s with dst := memWrite s.dst i v }) := fun _ => ⟨rfl, fun _ => rfl⟩
  unfold hostStoreDst
  rw [h.inRunningFrame i]
  split
  · exact ((blind_disturbDst i v).twin h).outcome
  · exact (outside.twin h).outcome

/-! ### The step -/

/-- What a fetch leads to. -/
def Fetched.outcome (f : Fetched) : Outcome :=
  match f with
  | .run c s => runCode c s
  | .other o => o

theorem step_eq_outcome (s : State) : step s = (fetch s).outcome := by
  unfold step
  cases fetch s <;> rfl

theorem twin_hostMove {A B : Prop} (op : HostOp) {s s' : State} (h : Twin A B s s') :
    TwinOutcome A B (hostMove op s).outcome (hostMove op s').outcome := by
  cases op with
  | ctrlWrite w => exact twin_exec_write (isWrite_decodeWrite w) h
  | ctrlRead a => exact twin_exec_decodeRead a h
  | loadSrc i => exact ((blind_answer (v := fun s => memRead s.src i) fun _ _ => rfl).twin h).outcome
  | storeSrc i v => exact twin_hostStoreSrc i v h
  | loadDst i => exact twin_hostLoadDst i h
  | storeDst i v => exact twin_hostStoreDst i v h

theorem Twin.hostq {A B : Prop} {s s' : State} (h : Twin A B s s') : s'.hostq = s.hostq := by
  obtain ⟨_, rfl, -, -⟩ := h
  rfl

theorem Twin.turns {A B : Prop} {s s' : State} (h : Twin A B s s') : s'.turns = s.turns := by
  obtain ⟨_, rfl, -, -⟩ := h
  rfl

theorem twin_hostTurn {A B : Prop} {s s' : State} (h : Twin A B s s') :
    TwinOutcome A B (hostTurn s).outcome (hostTurn s').outcome := by
  match hq : s.hostq with
  | [] =>
    rw [hostTurn_nil hq, hostTurn_nil (h.hostq.trans hq)]
    exact h.outcome
  | op :: rest =>
    have hw' := mustWait_congr op h.busy
    cases hw : mustWait op s with
    | true =>
      rw [hostTurn_waits hq hw, hostTurn_waits (h.hostq.trans hq) (hw'.trans hw)]
      exact h.outcome
    | false =>
      rw [hostTurn_moves hq hw, hostTurn_moves (h.hostq.trans hq) (hw'.trans hw)]
      exact twin_hostMove op (Blind.twin (f := fun s => { s with hostq := rest }) (fun _ => ⟨rfl, fun _ => rfl⟩) h)

theorem twin_pipeTurn {A B : Prop} {s s' : State} (hi : Inv s) (hi' : Inv s') (h : Twin A B s s') :
    TwinOutcome A B (pipeTurn s).outcome (pipeTurn s').outcome := by
  cases hb : s.busy with
  | false =>
    rw [pipeTurn_idle hb, pipeTurn_idle (h.busy.trans hb)]
    exact h.outcome
  | true =>
    obtain ⟨i, hd⟩ := decodePixel_of_le hi.modeLegal
    rw [pipeTurn_busy hb, pipeTurn_busy (h.busy.trans hb), h.mode]
    simp only [Fetched.outcome, runCode, decode, hd]
    exact twin_exec_pixel hi hi' hb hd h

theorem Twin.withTurns {A B : Prop} {s s' : State} (h : Twin A B s s') (ts : List Turn) :
    Twin A B { s with turns := ts } { s' with turns := ts } :=
  Blind.twin (f := fun s => { s with turns := ts }) (fun _ => ⟨rfl, fun _ => rfl⟩) h

theorem Twin.hostReady {A B : Prop} {s s' : State} (h : Twin A B s s') : hostReady s' = hostReady s := by
  match hq : s.hostq with
  | [] => rw [hostReady_nil hq, hostReady_nil (h.hostq.trans hq)]
  | op :: rest => rw [hostReady_cons hq, hostReady_cons (h.hostq.trans hq), mustWait_congr op h.busy]

/-- The step is a simulation: twins that are legal step to twins. -/
theorem twin_step {A B : Prop} {s s' : State} (hi : Inv s) (hi' : Inv s') (h : Twin A B s s') :
    TwinOutcome A B (step s) (step s') := by
  rw [step_eq_outcome, step_eq_outcome]
  match ht : s.turns with
  | .reset :: ts =>
    rw [fetch_reset ht, fetch_reset (h.turns.trans ht)]
    exact (twin_resetStep (h.withTurns ts)).outcome
  | .host :: ts =>
    rw [fetch_host ht, fetch_host (h.turns.trans ht)]
    exact twin_hostTurn (h.withTurns ts)
  | .pipe :: ts =>
    rw [fetch_pipe ht, fetch_pipe (h.turns.trans ht)]
    exact twin_pipeTurn (inv_withTurns hi ts) (inv_withTurns hi' ts) (h.withTurns ts)
  | [] =>
    have hr' := h.hostReady
    cases hr : Machine.hostReady s with
    | true =>
      rw [fetch_ready ht hr, fetch_ready (h.turns.trans ht) (hr'.trans hr)]
      exact twin_hostTurn h
    | false =>
      rw [fetch_not_ready ht hr, fetch_not_ready (h.turns.trans ht) (hr'.trans hr)]
      exact twin_pipeTurn hi hi' h

theorem TwinOutcome.next {A B : Prop} {o o' : Outcome} (h : TwinOutcome A B o o') {t : State} (ho : o = .next t) :
    ∃ t', o' = .next t' ∧ Twin A B t t' := by
  obtain ⟨u, t', hu, ht', htwin⟩ := h
  obtain rfl : u = t := by injection hu.symm.trans ho
  exact ⟨t', ht', htwin⟩

/-- Settles O25: both relations are `Twin`, each with the other part equal. -/
theorem cacheAndDriverAreInvisible : Obligations.CacheAndDriverAreInvisible := by
  constructor
  · intro s s' t hi hi' h hs
    obtain ⟨t', ht', htwin⟩ := (twin_step hi hi' (twin_of_sameButCache h)).next hs
    exact ⟨t', ht', sameButCache_of_twin htwin⟩
  · intro s s' t hi hi' h hs
    obtain ⟨t', ht', htwin⟩ := (twin_step hi hi' (twin_of_sameButDriver h)).next hs
    exact ⟨t', ht', sameButDriver_of_twin htwin⟩

end Sys2Proof.Machine
end

section
/-! PROOFS. Several machines side by side (R44, R146; assumption 20): a step of the system is one machine's own, each
makes a run of its own whatever the order of moves, and a frame ends although the others move too (R164, R170). -/

namespace Sys2Proof.Machine

/-! ### One step of a system -/

/-- The coming moves of a system that is about to step lead to the move itself. -/
theorem System.move_of_step {y z : System} {k : Nat} {rest : List Nat} (hu : y.upcoming = k :: rest)
    (h : y.step = .next z) : y.move k rest = .next z := (System.step_of_upcoming hu).symm.trans h

/-- A move reaches its own place only. -/
theorem System.move_frame {y z : System} {k : Nat} {rest : List Nat} (h : y.move k rest = .next z) :
    z.insts.length = y.insts.length ∧ z.order = rest ∧ ∀ j, j ≠ k → z.insts[j]? = y.insts[j]? := by
  obtain ⟨-, rfl⟩ | ⟨s, t, -, -, rfl⟩ := System.move_next h
  · exact ⟨rfl, rfl, fun _ _ => rfl⟩
  · exact ⟨List.length_set, rfl, fun j hj => List.getElem?_set_ne hj.symm⟩

/-- The machine at the place of the move takes its own step. -/
theorem System.move_own {y z : System} {k : Nat} {rest : List Nat} {s : State} (h : y.move k rest = .next z)
    (hk : y.insts[k]? = some s) : ∃ t, Machine.step s = .next t ∧ z.insts[k]? = some t := by
  obtain ⟨hnone, -⟩ | ⟨s', t, hk', ht, rfl⟩ := System.move_next h
  · exact absurd (hnone.symm.trans hk) (by simp)
  · obtain rfl : s' = s := Option.some.inj (hk'.symm.trans hk)
    obtain ⟨hlt, -⟩ := List.getElem?_eq_some_iff.mp hk
    exact ⟨t, ht, List.getElem?_set_self hlt⟩

/-- No step changes anybody's parameters. -/
theorem System.step_params {y z : System} (h : y.step = .next z) {j : Nat} {s t : State} (hs : y.insts[j]? = some s)
    (ht : z.insts[j]? = some t) : t.params = s.params := by
  obtain hsame | ⟨u, hu, hz⟩ := System.step_inst h hs
  · obtain rfl : s = t := Option.some.inj (hsame.symm.trans ht)
    rfl
  · obtain rfl : u = t := Option.some.inj (hz.symm.trans ht)
    exact (configurationAndTablesAreFixed s u hu).1

/-- The machine at the first of the coming moves steps when it can. -/
theorem System.step_at {y : System} {k : Nat} {rest : List Nat} (hu : y.upcoming = k :: rest) {s t : State}
    (hk : y.insts[k]? = some s) (ht : Machine.step s = .next t) :
    y.step = .next { insts := y.insts.set k t, order := rest } :=
  (System.step_of_upcoming hu).trans (System.move_some rest hk ht)

/-- Settles O58: a system's step is the first of the coming moves. -/
theorem instancesShareNothingMutable : Obligations.InstancesShareNothingMutable := by
  refine ⟨fun y k rest hu => ⟨fun s t hk ht => ?_, fun z hz => ?_⟩, fun n k hk => ?_⟩
  · have hz := System.step_at hu hk ht
    obtain ⟨-, -, hother⟩ := System.move_frame (System.move_of_step hu hz)
    obtain ⟨hlt, -⟩ := List.getElem?_eq_some_iff.mp hk
    exact ⟨_, hz, List.getElem?_set_self hlt, hother⟩
  · have hm := System.move_of_step hu hz
    obtain ⟨hlen, horder, hother⟩ := System.move_frame hm
    exact ⟨hlen, horder, hother, fun s hk => System.move_own hm hk, fun j s t hs ht => System.step_params hz hs ht⟩
  · rw [System.reset_insts, List.getElem?_replicate, if_pos hk]

/-! ### Runs of a system (R44) -/

theorem systemSteps_succ_of_step {n : Nat} {y z : System} (h : y.step = .next z) :
    systemSteps (n + 1) y = systemSteps n z := by simp [systemSteps, h]

theorem systemSteps_succ_next {n : Nat} {y z : System} (h : systemSteps (n + 1) y = .next z) :
    ∃ x, y.step = .next x ∧ systemSteps n x = .next z := by
  unfold systemSteps at h
  split at h
  · next x hx => exact ⟨x, hx, h⟩
  · exact absurd h (by simp)
  · exact absurd h (by simp)

theorem systemSteps_add {m n : Nat} {x y z : System} (h : systemSteps m x = .next y) (h' : systemSteps n y = .next z) :
    systemSteps (m + n) x = .next z := by
  induction m generalizing x with
  | zero =>
    injection h with h
    rw [Nat.zero_add, h, h']
  | succ m ih =>
    obtain ⟨w, hw, h⟩ := systemSteps_succ_next h
    rw [Nat.succ_add, systemSteps_succ_of_step hw]
    exact ih h

/-- Each machine can take alone as many steps as it has moves in the list. -/
def CanMove (l : List State) (moves : List Nat) : Prop :=
  ∀ k s, l[k]? = some s → ∃ t, steps (moves.count k) s = .next t

/-- `l'` holds each machine of `l` after as many steps of its own as it has moves in the list. -/
def MovedAlone (l l' : List State) (moves : List Nat) : Prop :=
  l'.length = l.length ∧ ∀ k s t, l[k]? = some s → steps (moves.count k) s = .next t → l'[k]? = some t

/-- The first move of the list: what is left can be done, and what it does then is what the whole list does. -/
theorem first_move {l : List State} {k : Nat} {moves : List Nat} (h : CanMove l (k :: moves)) :
    ∃ l1, System.step ⟨l, k :: moves⟩ = .next ⟨l1, moves⟩ ∧ CanMove l1 moves ∧
      ∀ l', MovedAlone l1 l' moves → MovedAlone l l' (k :: moves) := by
  match hk : l[k]? with
  | none =>
    have count : ∀ {j s}, l[j]? = some s → (k :: moves).count j = moves.count j := fun {j s} hj =>
      List.count_cons_of_ne fun hkj => by rw [hkj, hj] at hk; exact absurd hk (by simp)
    refine ⟨l, ?_, fun j s hj => count hj ▸ h j s hj, fun l' hl' => ⟨hl'.1, fun j s t hj ht => ?_⟩⟩
    · exact (System.step_of_upcoming rfl).trans (System.move_none (y := ⟨l, k :: moves⟩) moves hk)
    · exact hl'.2 j s t hj (count hj ▸ ht)
  | some s =>
    obtain ⟨u, hu⟩ := h k s hk
    rw [List.count_cons_self] at hu
    obtain ⟨t, ht, hrest⟩ := steps_succ_next hu
    obtain ⟨hlt, -⟩ := List.getElem?_eq_some_iff.mp hk
    have hself : (l.set k t)[k]? = some t := List.getElem?_set_self hlt
    have hother : ∀ {j}, k ≠ j → (l.set k t)[j]? = l[j]? := fun hne => List.getElem?_set_ne hne
    refine ⟨l.set k t, System.step_at (y := ⟨l, k :: moves⟩) rfl hk ht, fun j s' hj => ?_, fun l' hl' =>
      ⟨hl'.1.trans List.length_set, fun j s' t' hj ht' => ?_⟩⟩
    · by_cases hkj : k = j
      · subst hkj
        obtain rfl : t = s' := Option.some.inj (hself.symm.trans hj)
        exact ⟨u, hrest⟩
      · rw [hother hkj] at hj
        exact List.count_cons_of_ne hkj ▸ h j s' hj
    · by_cases hkj : k = j
      · subst hkj
        obtain rfl : s = s' := Option.some.inj (hk.symm.trans hj)
        rw [List.count_cons_self, steps_succ_of_step ht] at ht'
        exact hl'.2 k t t' hself ht'
      · exact hl'.2 j s' t' ((hother hkj).trans hj) (List.count_cons_of_ne hkj ▸ ht')

/-- The system runs through the list, and each machine is where its own steps bring it. -/
theorem runs_through {l : List State} {moves : List Nat} (h : CanMove l moves) :
    ∃ l', systemSteps moves.length ⟨l, moves⟩ = .next ⟨l', []⟩ ∧ MovedAlone l l' moves := by
  induction moves generalizing l with
  | nil =>
    refine ⟨l, rfl, rfl, fun k s t hk ht => ?_⟩
    injection ht with ht
    exact ht ▸ hk
  | cons k moves ih =>
    obtain ⟨l1, hstep, hcan, hthen⟩ := first_move h
    obtain ⟨l', hrun, hmoved⟩ := ih hcan
    exact ⟨l', (systemSteps_succ_of_step hstep).trans hrun, hthen l' hmoved⟩

/-- Where each machine ends is settled by the numbers of moves. -/
theorem movedAlone_unique {l l' l'' : List State} {moves moves' : List Nat} (hcan : CanMove l moves)
    (hcount : ∀ k, moves'.count k = moves.count k) (h : MovedAlone l l' moves) (h' : MovedAlone l l'' moves') :
    l'' = l' := by
  apply List.ext_getElem?
  intro k
  match hk : l[k]? with
  | none =>
    have hlen : l.length ≤ k := List.getElem?_eq_none_iff.mp hk
    rw [List.getElem?_eq_none (h'.1.le.trans hlen), List.getElem?_eq_none (h.1.le.trans hlen)]
  | some s =>
    obtain ⟨t, ht⟩ := hcan k s hk
    rw [h.2 k s t hk ht, h'.2 k s t hk ((hcount k).symm ▸ ht)]

/-- In any run of a system each machine makes a run of its own. -/
theorem own_run {n : Nat} {y z : System} {k : Nat} {s : State} (h : systemSteps n y = .next z)
    (hk : y.insts[k]? = some s) : ∃ m t, m ≤ n ∧ steps m s = .next t ∧ z.insts[k]? = some t := by
  induction n generalizing y s with
  | zero =>
    injection h with h
    exact ⟨0, s, Nat.le_refl 0, rfl, h ▸ hk⟩
  | succ n ih =>
    obtain ⟨x, hx, h⟩ := systemSteps_succ_next h
    obtain hsame | ⟨u, hu, hxk⟩ := System.step_inst hx hk
    · obtain ⟨m, t, hm, hrun, hz⟩ := ih h hsame
      exact ⟨m, t, Nat.le_succ_of_le hm, hrun, hz⟩
    · obtain ⟨m, t, hm, hrun, hz⟩ := ih h hxk
      exact ⟨m + 1, t, Nat.succ_le_succ hm, (steps_succ_of_step hu).trans hrun, hz⟩

/-- Settles O59: the run through the list, its uniqueness up to the mixing, and the run of each machine. -/
theorem instancesRunAsIfAlone : Obligations.InstancesRunAsIfAlone := by
  refine ⟨fun y moves hcan => ?_, fun y z n k s => own_run⟩
  obtain ⟨l', hrun, hmoved⟩ := runs_through (l := y.insts) hcan
  refine ⟨⟨l', []⟩, hrun, rfl, hmoved.1, hmoved.2, fun moves' hperm => ?_⟩
  have hcount : ∀ k, moves'.count k = moves.count k := fun k => hperm.count_eq k
  have hcan' : CanMove y.insts moves' := fun k s hk => hcount k ▸ hcan k s hk
  obtain ⟨l'', hrun', hmoved'⟩ := runs_through hcan'
  exact ⟨⟨l'', []⟩, hrun', movedAlone_unique hcan hcount hmoved hmoved'⟩

/-! ### Every machine gets its move (R170) -/

/-- A system of legal machines. -/
def AllLegal (y : System) : Prop := ∀ u ∈ y.insts, Inv u

theorem AllLegal.get {y : System} (h : AllLegal y) {k : Nat} {s : State} (hk : y.insts[k]? = some s) : Inv s :=
  h s (List.mem_of_getElem? hk)

/-- A legal system moves, and stays legal. -/
theorem AllLegal.step {y : System} (h : AllLegal y) {k : Nat} {rest : List Nat} (hu : y.upcoming = k :: rest) :
    ∃ z, y.step = .next z ∧ AllLegal z ∧ y.move k rest = .next z := by
  match hk : y.insts[k]? with
  | none =>
    have hm := System.move_none rest hk
    exact ⟨_, (System.step_of_upcoming hu).trans hm, h, hm⟩
  | some s =>
    obtain ⟨t, ht⟩ := legalStatesAlwaysStep s (h.get hk)
    refine ⟨_, System.step_at hu hk ht, fun u hmem => ?_, System.move_some rest hk ht⟩
    obtain hmem | rfl := List.mem_or_eq_of_mem_set hmem
    · exact h u hmem
    · exact inv_step (h.get hk) ht

/-- The system comes to a state in which the machine at `k` has taken its next step. -/
def ComesToMove (y : System) (k : Nat) (s : State) : Prop :=
  ∃ n z t, systemSteps n y = .next z ∧ AllLegal z ∧ Machine.step s = .next t ∧ z.insts[k]? = some t

/-- The machine first in line moves at once. -/
theorem comesToMove_first {y : System} (h : AllLegal y) {k : Nat} {rest : List Nat} (hu : y.upcoming = k :: rest)
    {s : State} (hk : y.insts[k]? = some s) : ComesToMove y k s := by
  obtain ⟨z, hz, hlegal, hm⟩ := h.step hu
  obtain ⟨t, ht, hzk⟩ := System.move_own hm hk
  exact ⟨1, z, t, (systemSteps_succ_of_step hz).trans rfl, hlegal, ht, hzk⟩

/-- Another's move only shortens the line. -/
theorem comesToMove_later {y : System} (h : AllLegal y) {j k : Nat} {rest : List Nat} (hu : y.upcoming = j :: rest)
    (hjk : j ≠ k) {s : State} (hk : y.insts[k]? = some s)
    (hthen : ∀ z, AllLegal z → z.order = rest → z.insts[k]? = some s → ComesToMove z k s) : ComesToMove y k s := by
  obtain ⟨z, hz, hlegal, hm⟩ := h.step hu
  obtain ⟨-, horder, hother⟩ := System.move_frame hm
  obtain ⟨n, w, t, hrun, hend⟩ := hthen z hlegal horder ((hother k hjk.symm).trans hk)
  exact ⟨n + 1, w, t, (systemSteps_succ_of_step hz).trans hrun, hend⟩

theorem System.upcoming_of_order {y : System} {k : Nat} {rest : List Nat} (h : y.order = k :: rest) :
    y.upcoming = k :: rest := by simp [System.upcoming, h]

theorem System.upcoming_of_no_order {y : System} (h : y.order = []) : y.upcoming = List.range y.insts.length := by
  simp [System.upcoming, h]

/-- A machine in the line gets its move. -/
theorem comesToMove_of_mem {y : System} (h : AllLegal y) {k : Nat} {s : State} (hk : y.insts[k]? = some s)
    {line : List Nat} (hu : y.upcoming = line) (hmem : k ∈ line) : ComesToMove y k s := by
  induction line generalizing y with
  | nil => exact absurd hmem (by simp)
  | cons j rest ih =>
    by_cases hjk : j = k
    · exact comesToMove_first h (hjk ▸ hu) hk
    · refine comesToMove_later h hu hjk hk fun z hlegal horder hzk => ?_
      have hrest : k ∈ rest := List.mem_of_ne_of_mem (Ne.symm hjk) hmem
      obtain ⟨i, rest', rfl⟩ := List.exists_cons_of_ne_nil (List.ne_nil_of_mem hrest)
      exact ih hlegal hzk (System.upcoming_of_order horder) hrest

/-- Every machine gets its move: when the order is used up, all are in the line (assumption 20). -/
theorem comesToMove {y : System} (h : AllLegal y) {k : Nat} {s : State} (hk : y.insts[k]? = some s) :
    ComesToMove y k s := by
  match horder : y.order with
  | [] =>
    obtain ⟨hlt, -⟩ := List.getElem?_eq_some_iff.mp hk
    exact comesToMove_of_mem h hk (System.upcoming_of_no_order horder) (List.mem_range.mpr hlt)
  | j :: rest =>
    have hu := System.upcoming_of_order horder
    by_cases hjk : j = k
    · exact comesToMove_first h (hjk ▸ hu) hk
    · exact comesToMove_later h hu hjk hk fun z hlegal hrest hzk => comesToMove hlegal hzk
termination_by y.order.length
decreasing_by simp [horder, hrest]

/-! ### A frame among others (R164) -/

/-- A frame whose host keeps its duties ends in any system of legal machines: each of its own steps leaves less. -/
theorem frame_ends_among_others {s : State} (hs : Inv s) {y : System} (h : AllLegal y) {k : Nat} {u : State}
    (hk : y.insts[k]? = some u) (r : FrameRun s u) :
    ∃ n z t, systemSteps n y = .next z ∧ z.insts[k]? = some t ∧ FrameRun s t ∧ t.done = true := by
  cases hb : u.busy with
  | false => exact ⟨0, y, u, rfl, hk, r, by rw [r.status, hb]; rfl⟩
  | true =>
    obtain ⟨m, x, v, hrun, hlegal, hv, hxk⟩ := comesToMove h hk
    have hless := workLeft_lt_of_step r.inv hb (head_ne_reset r.quiet.2) hv
    obtain ⟨n, z, t, hrun', hend⟩ := frame_ends_among_others hs hlegal hxk (frameRun_step hs r hb hv)
    exact ⟨m + n, z, t, systemSteps_add hrun hrun', hend⟩
termination_by workLeft u

/-- Settles O60: `FrameRun` is kept by the machine's own steps, and at `DONE` it says what `DST` holds. -/
theorem severalRastersAreFilteredAtOnce : Obligations.SeveralRastersAreFilteredAtOnce := by
  intro y k s s1 x hlegal hk hi hb hw hh hq he
  rw [exec_transform_idle hb hw hh] at he
  injection he with he
  subst he
  obtain ⟨n, z, t, hrun, hzk, r, hd⟩ := frame_ends_among_others hi hlegal hk (frameRun_startFrame hi hb hw hh hq)
  exact ⟨n, z, t, hrun, hzk, hd, (r.at_done hd).1, fun _ hlt => r.result hd hlt⟩

end Sys2Proof.Machine
end

section
/-! PROOFS. The ranges of the integer datapaths and what they allow: the red-green variant in 32 signed bits (R84), the
grayscale bucket without a clamp (R101, R102), and the worked examples of R81 and R100. -/

namespace Sys2Proof.Machine

/-! ### The red-green sums over a range of linear values (R84) -/

/-- The three linear values of a pixel lie between two bounds. -/
structure Between (lo hi r g b : Int) : Prop where
  r : lo ≤ r ∧ r ≤ hi
  g : lo ≤ g ∧ g ≤ hi
  b : lo ≤ b ∧ b ≤ hi

/-- The linear values of any table contents (R62). -/
theorem between_linInt (ps : Params) (p : Pixel) :
    Between 0 32767 (linInt ps (redOf p)) (linInt ps (greenOf p)) (linInt ps (blueOf p)) :=
  ⟨linInt_range ps _, linInt_range ps _, linInt_range ps _⟩

theorem linInt_reference_range {ps : Params} (h : ps.fwd = fwdReference) (c : Channel) :
    130 ≤ linInt ps c ∧ linInt ps c ≤ 32636 := by
  obtain ⟨hlo, hhi⟩ := fwdReference_between_ends ⟨c.toNat, c.isLt⟩
  rw [linInt, lin]
  simp only [h]
  exact ⟨by exact_mod_cast hlo, by exact_mod_cast hhi⟩

/-- The linear values of the reference contents (R72). -/
theorem between_reference {ps : Params} (h : ps.fwd = fwdReference) (p : Pixel) :
    Between 130 32636 (linInt ps (redOf p)) (linInt ps (greenOf p)) (linInt ps (blueOf p)) :=
  ⟨linInt_reference_range h _, linInt_reference_range h _, linInt_reference_range h _⟩

theorem sumRed_deut (r g : Int) : sumRed presetDeut r g = 9591 * r + 23173 * g := by
  rw [sumRed, presetDeut_k1_toInt, presetDeut_k2_toInt]

theorem sumBlue_deut (r g b : Int) : sumBlue presetDeut r g b = -730 * r + 730 * g + 32768 * b := by
  rw [sumBlue, presetDeut_k3_toInt]
  ring

theorem sumRed_prot (r g : Int) : sumRed presetProt r g = 3683 * r + 29084 * g := by
  rw [sumRed, presetProt_k1_toInt, presetProt_k2_toInt]

theorem sumBlue_prot (r g b : Int) : sumBlue presetProt r g b = 131 * r - 131 * g + 32768 * b := by
  rw [sumBlue, presetProt_k3_toInt]

/-- The shift of a sum in a range, as bounds on the floor. -/
theorem shiftRight_between {z lo hi : Int} (h : lo * 4194304 ≤ z ∧ z < (hi + 1) * 4194304) :
    lo ≤ z >>> (22 : Nat) ∧ z >>> (22 : Nat) ≤ hi := by
  rw [Int.shiftRight_eq_div_pow]
  omega

theorem sumRed_deut_range {r g b : Int} (h : Between 0 32767 r g b) :
    0 ≤ sumRed presetDeut r g ∧ sumRed presetDeut r g ≤ 1073577988 := by
  obtain ⟨hr, hg, -⟩ := h
  rw [sumRed_deut]
  omega

theorem sumBlue_deut_range {r g b : Int} (h : Between 0 32767 r g b) :
    -23919910 ≤ sumBlue presetDeut r g b ∧ sumBlue presetDeut r g b ≤ 1097628966 := by
  obtain ⟨hr, hg, hb⟩ := h
  rw [sumBlue_deut]
  omega

theorem sumRed_prot_range {r g b : Int} (h : Between 0 32767 r g b) :
    0 ≤ sumRed presetProt r g ∧ sumRed presetProt r g ≤ 1073676289 := by
  obtain ⟨hr, hg, -⟩ := h
  rw [sumRed_prot]
  omega

theorem sumBlue_prot_range {r g b : Int} (h : Between 0 32767 r g b) :
    -4292477 ≤ sumBlue presetProt r g b ∧ sumBlue presetProt r g b ≤ 1078001533 := by
  obtain ⟨hr, hg, hb⟩ := h
  rw [sumBlue_prot]
  omega

theorem blueBlind_deut_reference {r g b : Int} (h : Between 130 32636 r g b) :
    -5 ≤ blueBlind presetDeut r g b ∧ blueBlind presetDeut r g b ≤ 260 := by
  obtain ⟨hr, hg, hb⟩ := h
  refine shiftRight_between ?_
  rw [sumBlue_deut]
  omega

theorem blueBlind_prot_reference {r g b : Int} (h : Between 130 32636 r g b) :
    0 ≤ blueBlind presetProt r g b ∧ blueBlind presetProt r g b ≤ 255 := by
  obtain ⟨hr, hg, hb⟩ := h
  refine shiftRight_between ?_
  rw [sumBlue_prot]
  omega

/-! ### The 32-bit datapath (R84) -/

/-- A signed 32-bit value in range is not reduced. -/
theorem bmod_of_fits {z : Int} (h : -2147483648 ≤ z ∧ z ≤ 2147483647) : z.bmod (2 ^ 32) = z :=
  Int.bmod_eq_of_le (by omega) (by omega)

/-- A linear value as a 32-bit word is never negative. -/
theorem toInt_setWidth_linear (x : Linear) : (x.setWidth 32).toInt = (x.toNat : Int) := by
  have hx := x.isLt
  rw [BitVec.toInt_eq_toNat_of_lt (by rw [BitVec.toNat_setWidth]; omega), BitVec.toNat_setWidth,
    Nat.mod_eq_of_lt (by omega)]

/-- Two's complement sums are the exact ones modulo `2^32`. -/
theorem toInt_sumRed32 (k : Preset) (r g : Linear) :
    (sumRed32 k r g).toInt = (sumRed k r.toNat g.toNat).bmod (2 ^ 32) := by
  rw [sumRed32, sumRed, BitVec.toInt_add, BitVec.toInt_mul, BitVec.toInt_mul, toInt_setWidth_linear,
    toInt_setWidth_linear, BitVec.toInt_signExtend_of_le (by decide), BitVec.toInt_signExtend_of_le (by decide),
    Int.bmod_add_bmod, Int.add_bmod_bmod]

theorem toInt_sumBlue32 (k : Preset) (r g b : Linear) :
    (sumBlue32 k r g b).toInt = (sumBlue k r.toNat g.toNat b.toNat).bmod (2 ^ 32) := by
  have hshift : b.setWidth 32 <<< 15 = b.setWidth 32 * 32768#32 := by
    rw [BitVec.shiftLeft_eq_mul_twoPow]
    rfl
  rw [sumBlue32, sumBlue, hshift, BitVec.toInt_add, BitVec.toInt_sub, BitVec.toInt_mul, BitVec.toInt_mul,
    BitVec.toInt_mul, toInt_setWidth_linear, toInt_setWidth_linear, toInt_setWidth_linear,
    BitVec.toInt_signExtend_of_le (by decide), Int.bmod_sub_bmod, Int.sub_bmod_bmod, Int.bmod_add_bmod,
    Int.add_bmod_bmod, Int.mul_comm 32768]
  rfl

/-- The clamp on a signed word is the clamp on its value. -/
theorem clamp32_eq_clamp255 (z : BitVec 32) : clamp32 z = clamp255 z.toInt := by
  have hzero : z.slt 0#32 = decide (z.toInt < 0) := rfl
  have hbig : (255#32).slt z = decide (255 < z.toInt) := rfl
  have hlow : z.setWidth 8 = BitVec.ofInt 8 z.toInt := (BitVec.signExtend_eq_setWidth_of_le z (by decide)).symm
  simp only [clamp32, clamp255, hzero, hbig, hlow, decide_eq_true_eq]

/-- Where no sum leaves 32 signed bits, the 32-bit datapath gives the same word. -/
theorem transformRedGreen32_eq {ps : Params} {k : Preset} {p : Pixel}
    (hred : -2147483648 ≤ sumRed k (linInt ps (redOf p)) (linInt ps (greenOf p)) ∧
      sumRed k (linInt ps (redOf p)) (linInt ps (greenOf p)) ≤ 2147483647)
    (hblue : -2147483648 ≤ sumBlue k (linInt ps (redOf p)) (linInt ps (greenOf p)) (linInt ps (blueOf p)) ∧
      sumBlue k (linInt ps (redOf p)) (linInt ps (greenOf p)) (linInt ps (blueOf p)) ≤ 2147483647) :
    transformRedGreen32 ps k p = transformRedGreen ps k p := by
  have hr : clamp32 ((sumRed32 k (lin ps (redOf p)) (lin ps (greenOf p))).sshiftRight 22) =
      clamp255 (redBlind k (linInt ps (redOf p)) (linInt ps (greenOf p))) := by
    rw [clamp32_eq_clamp255, BitVec.toInt_sshiftRight, toInt_sumRed32]
    exact congrArg (fun z : Int => clamp255 (z >>> (22 : Nat))) (bmod_of_fits hred)
  have hb : clamp32 ((sumBlue32 k (lin ps (redOf p)) (lin ps (greenOf p)) (lin ps (blueOf p))).sshiftRight 22) =
      clamp255 (blueBlind k (linInt ps (redOf p)) (linInt ps (greenOf p)) (linInt ps (blueOf p))) := by
    rw [clamp32_eq_clamp255, BitVec.toInt_sshiftRight, toInt_sumBlue32]
    exact congrArg (fun z : Int => clamp255 (z >>> (22 : Nat))) (bmod_of_fits hblue)
  simp only [transformRedGreen32, transformRedGreen, hr, hb]

/-- Settles O31: the sums of each preset over the range of the tables, their shifts, and the datapath they fit. -/
theorem redGreenFits32Bits : Obligations.RedGreenFits32Bits := by
  rintro ps p r g b rfl rfl rfl
  have h := between_linInt ps p
  have hrd := sumRed_deut_range h
  have hbd := sumBlue_deut_range h
  have hrp := sumRed_prot_range h
  have hbp := sumBlue_prot_range h
  refine ⟨hrd, hbd, shiftRight_between (by omega), shiftRight_between (by omega), hrp, hbp,
    shiftRight_between (by omega), shiftRight_between (by omega),
    fun href =>
      have h := between_reference href p
      ⟨blueBlind_deut_reference h, blueBlind_prot_reference h⟩,
    transformRedGreen32_eq (by omega) (by omega), transformRedGreen32_eq (by omega) (by omega)⟩

/-! ### The grayscale bucket (R100 to R102) -/

/-- The divisor 2560000 is the weights' 10000 times 256, in either order of truncation. -/
theorem grayBucket_eq_truncated (r g b : Int) : grayBucket r g b = sumGray r g b / 10000 / 256 := by
  rw [grayBucket, Int.ediv_ediv_of_nonneg (by decide)]
  rfl

theorem grayBucket_eq_floor (r g b : Int) :
    grayBucket r g b = ⌊(0.2126 * (r : ℚ) + 0.7152 * (g : ℚ) + 0.0722 * (b : ℚ)) / 256⌋ := by
  have hq : (0.2126 * (r : ℚ) + 0.7152 * (g : ℚ) + 0.0722 * (b : ℚ)) / 256 =
      (sumGray r g b : ℚ) / ((2560000 : ℕ) : ℚ) := by
    rw [sumGray]
    push_cast
    ring
  rw [hq, Rat.floor_intCast_div_natCast]
  rfl

theorem sumGray_range {r g b : Int} (h : Between 0 32767 r g b) : 0 ≤ sumGray r g b ∧ sumGray r g b ≤ 327670000 := by
  obtain ⟨hr, hg, hb⟩ := h
  rw [sumGray]
  omega

/-- Settles O33: the divisor as a product, and the bucket within half of the table. -/
theorem grayscaleBucketIsExact : Obligations.GrayscaleBucketIsExact := by
  rintro ps p r g b rfl rfl rfl
  obtain ⟨hlo, hhi⟩ := sumGray_range (between_linInt ps p)
  have hbucket : 0 ≤ grayBucket (linInt ps (redOf p)) (linInt ps (greenOf p)) (linInt ps (blueOf p)) ∧
      grayBucket (linInt ps (redOf p)) (linInt ps (greenOf p)) (linInt ps (blueOf p)) ≤ 127 := by
    rw [grayBucket]
    omega
  obtain ⟨hb0, hb1⟩ := hbucket
  exact ⟨grayBucket_eq_floor _ _ _, grayBucket_eq_truncated _ _ _, hlo, hhi, hb0, hb1,
    toNat_clamp255 hb0 (hb1.trans (by decide))⟩

/-! ### Worked examples (R81, R100) -/

/-- The reference tables, with tritan constants and a driver form that these transforms do not read. -/
def referenceParams : Params := { fwd := fwdReference, inv := invReference, tri := default, driver := .streaming }

theorem transformDeut_reference : transformDeut referenceParams 0xFFFF0000 = 0xFF929200 := by decide +kernel
theorem transformProt_reference : transformProt referenceParams 0xFFFF0000 = 0xFF5E5E1C := by decide +kernel
theorem transformGray_reference_green : transformGray referenceParams 0xFF00FF00 = 0xFF9F9F9F := by decide +kernel
theorem transformGray_reference_white : transformGray referenceParams 0xFFFFFFFF = 0xFFB9B9B9 := by decide +kernel

/-- Settles O41: the transforms of modes 1, 2 and 4 read the two tables only. -/
theorem workedExamplesOfTheTransforms : Obligations.WorkedExamplesOfTheTransforms := by
  rintro tri d ps rfl
  exact ⟨transformDeut_reference, transformProt_reference, transformGray_reference_green,
    transformGray_reference_white⟩

end Sys2Proof.Machine
end
